-- ==== Sys2Proof/Word.lean ====
section
/-! DEFINITION. The word types of the part and the numbers that name its fixed places. -/

namespace Sys2Proof

/-- One byte of a message, a frame, a reply or a descriptor. -/
abbrev Byte := BitVec 8

/-- A digest or a CRC-32 (01, R9 and R20). -/
abbrev Word32 := BitVec 32

/-- A line-card slot, and the lane of the same number (00, section 0.6: slot n and lane n are one position, 0..15). -/
abbrev Slot := Fin 16

/-- A job number: an entry of the job table, 0..3 (06, R118). -/
abbrev JobNo := Fin 4

/-- A two-byte tag of the route processor (08, R178). -/
abbrev Tag := BitVec 16

end Sys2Proof
end

