-- ==== Sys2Proof/Syntax.lean ====
section
/-! DEFINITION. The commands of the block: one constructor of `Instr` per row of spec/opcode_table.json. -/

namespace Sys2Proof

/-- The two port words whose writes are discarded (08, R174). -/
inductive PortWord where
  | credit
  | response
  deriving DecidableEq, Repr

/-- A command: one indivisible step of the part (95), by its row of the table.

A request row carries no operand: it is the handler's taking of the request at the head of the request queue
(08, R177), and the arguments stand in that message (DESIGN CHOICE, log 4). -/
inductive Instr where
  -- requests (02, 01, 03, 05, 06, 09, 08)
  | insert
  | update
  | retire
  | find
  | readRow
  | storeInit
  | storeStats
  | laneStatus
  | laneReset
  | laneRelease
  | laneClearAlarm
  | copyStart
  | copyAbort
  | copyStatus
  | setScan
  | setLaneAlarm
  | setAudit
  | identify
  | softReset
  | unknownRequestKind
  -- port accesses (08)
  | requestPortWrite (bytes : List Byte)
  | responsePortRead (length : Nat)
  | portWordWriteDiscarded (word : PortWord) (bytes : List Byte)
  -- resets (08, 09)
  | powerOn
  | resetPinAssert
  | resetEnd
  -- seating (03): bit n of a sample word is slot n, true for seated and for closed
  | scan (present lever : BitVec 16)
  | presentRise (slot : Slot)
  | presentFall (slot : Slot)
  | leverClose (slot : Slot)
  | leverOpen (slot : Slot)
  -- identification (03): the outcome of the attempt on the head of the identification FIFO, or of one just abandoned (log 26)
  | idAttemptComplete (descriptor : Vector Byte 16)
  | idNotAcknowledged
  | idArbitrationLost
  | idWaitExpiry
  -- training (03): a reply carries its bytes as they arrived (10, R203)
  | alignStepTimeout (slot : Slot)
  | patternReplyTimeout (slot : Slot)
  | locked (slot : Slot) (reply : List Byte)
  | patternResult (slot : Slot) (reply : List Byte)
  -- the lane link (04)
  | transmissionComplete (slot : Slot)
  | burstAck (slot : Slot) (reply : List Byte)
  | ackTimeout (slot : Slot)
  -- live lanes (04, 05)
  | transmitterFill (slot : Slot)
  | auditTimerExpiry (slot : Slot)
  -- record store (01)
  | storeInitComplete
  -- copy engine and convergence monitor (06, 07)
  | sweepExamination
  | drainRowTake
  | grantComplete
  | freezeTimerExpiry (job : JobNo)
  | sampleTimerExpiry (job : JobNo)
  -- notices (08)
  | noticePlace
  deriving DecidableEq, Repr

end Sys2Proof
end

