-- ==== Sys2Proof/Config.lean ====
section
/-! DEFINITION. The numbers the part fixes (each with its rule). The spec leaves no computed value open, so this file holds
no free value (log 24). -/

namespace Sys2Proof.Config

/-- Bytes of a request or of an outgoing message (08, R175; 10, section 10.2). -/
def messageBytes : Nat := 128
/-- Request queue capacity (08, R175). -/
def requestCapacity : Nat := 64
/-- Response queue capacity (08, R181). -/
def responseCapacity : Nat := 256
/-- Free response entries a notice requires (08, R184). -/
def noticeRoom : Nat := 16
/-- Rows of a segment (01, R11). -/
def segmentRows : Nat := 4096
/-- Ways of a key-index bucket (01, R16). -/
def bucketWays : Nat := 8
/-- Capacity of the overflow list (01, R16). -/
def overflowCapacity : Nat := 256
/-- Apply queue capacity (05, R97). -/
def applyCapacity : Nat := 4096
/-- Depth below which the repair cursor places entries (05, R97 and R111). -/
def repairRoom : Nat := 3072
/-- Entries the repair cursor places in one step (05, R111). -/
def repairStepEntries : Nat := 8
/-- Depth above which an audit is deferred (05, R107). -/
def auditDepth : Nat := 2048
/-- Greatest audit debt (05, R107). -/
def maxDebt : Nat := 8
/-- Frames of a burst (04, R78). -/
def burstFrames : Nat := 8
/-- Resends of a burst (04, R81 and R86). -/
def maxResends : Nat := 3
/-- TEST bursts of a PATTERN step (03, R69). -/
def testBursts : Nat := 64
/-- Training attempts (03, R67). -/
def maxAttempts : Nat := 3
/-- Not-acknowledged attempts that end an identification (03, R62). -/
def maxNacks : Nat := 3
/-- Arbitration-lost attempts that end an identification (03, R63). -/
def maxLosses : Nat := 8
/-- Rows one sweep grant examines (06, R129). -/
def grantExaminations : Nat := 256
/-- Freeze expiries that end a job (07, R163 and R164). -/
def maxFreezes : Nat := 3
/-- Failed verify rounds that end a job (07, R169). -/
def maxRounds : Nat := 3
/-- Value at which 16-bit counts saturate (05, R109; 07, R150 and R151). -/
def saturation : Nat := 65535
/-- The predicted freeze time that stands for an unbounded one (07, R154). -/
def unboundedTime : Nat := 16777215

/-- Microseconds of the scan period (03, R45). -/
def scanPeriod : Nat := 1000
/-- Microseconds of the wait between identification attempts (03, R62 and R63). -/
def idWait : Nat := 1000
/-- Microseconds of the ALIGN step timer and of the PATTERN reply timer (03, R68 and R69). -/
def trainTimeout : Nat := 10000
/-- Microseconds of the acknowledgement timer (04, R81). -/
def ackTimeout : Nat := 100
/-- Microseconds of one unit of the audit interval (05, R106; 09, R189). -/
def auditUnit : Nat := 10000
/-- Microseconds of a sample period (07, R149). -/
def samplePeriod : Nat := 1024

/-- Vendor code (09, R194). -/
def vendorCode : Nat := 0x5A47
/-- Part code (09, R194). -/
def partCode : Nat := 7240
/-- Revision (09, R194). -/
def revision : Nat := 3

end Sys2Proof.Config
end

