-- ==== Sys2Proof/Machine/Types.lean ====
section
/-! DEFINITION. The data the part's state is made of: records, apply entries, frames, bursts, lanes, jobs, grants,
settings, and the outgoing messages. -/

namespace Sys2Proof.Machine

/-! ### Records (01, sections 1.1.1 to 1.1.3) -/

/-- The family of a key (01, R1). -/
inductive Kind where
  | v4
  | v6
  | label
  deriving DecidableEq, Repr

/-- The form in which a board holds records (01, R8). -/
inductive Profile where
  | compact
  | full
  deriving DecidableEq, Repr

/-- The action group of a body (01, section 1.1.2). -/
inductive Action where
  | forward
  | drop
  | punt
  deriving DecidableEq, Repr

/-- One next-hop entry (01, section 1.1.2). -/
structure NextHop where
  slot : Nat
  port : Nat
  rewrite : Nat
  weight : Nat
  deriving DecidableEq, Repr

/-- A record key (01, R1). -/
inductive Key where
  | v4 (table plen : Nat) (addr : BitVec 32)
  | v6 (table plen : Nat) (addr : BitVec 128)
  | label (table label : Nat)
  deriving DecidableEq, Repr

/-- A record body: the four field groups (01, section 1.1.2). Absent is `none`. -/
structure Body where
  action : Action
  hops : List NextHop
  counter : Option Nat
  cls : Option Nat
  deriving DecidableEq, Repr

/-- A forwarding record (01, section 1.1). -/
structure Record where
  key : Key
  body : Body
  deriving DecidableEq, Repr

/-- The changed field groups of a PATCH (02, R36): `none` for a group that is not carried, and a carried optional group
holds its new value, absent included. -/
structure Patch where
  action : Option Action
  hops : Option (List NextHop)
  counter : Option (Option Nat)
  cls : Option (Option Nat)
  deriving DecidableEq, Repr

/-! ### The record store (01) -/

/-- The store states (01, section 1.2.1). -/
inductive StorePhase where
  | uninitialized
  | initializing
  | initialized
  deriving DecidableEq, Repr

/-- One entry of the key index: a canonical key and the row of its record (01, R16). -/
structure IndexEntry where
  key : Key
  row : Nat
  deriving DecidableEq, Repr

/-- An occupied way of a bucket: the bucket's number and the entry in the way (01, R16; log 16). -/
structure Way where
  bucket : Nat
  entry : IndexEntry
  deriving DecidableEq, Repr

/-- The record store (01).

`rows` is the row table: (row, record) with rows strictly rising, an unlisted row being free (log 12). The free-row stack
is `freed`, its top first, standing on the rows `fresh`, `fresh + 1`, … `size - 1` that no INSERT has yet taken (log 9). -/
structure Store where
  phase : StorePhase
  size : Nat
  rows : List (Nat × Record)
  freed : List Nat
  fresh : Nat
  ways : List Way
  overflow : List IndexEntry
  fullDigests : List Word32
  compactDigests : List Word32
  deriving DecidableEq, Repr

/-! ### Timers -/

/-- A timer: stopped, or running with its remaining microseconds (log 1). -/
abbrev Timer := Option Nat

/-! ### Settings (09, R189) -/

/-- The lag-alarm mode. -/
inductive AlarmMode where
  | auto
  | sticky
  deriving DecidableEq, Repr

/-- The four settings. -/
structure Settings where
  debounce : Nat
  threshold : Nat
  mode : AlarmMode
  interval : Nat
  deriving DecidableEq, Repr

/-- The cause of the latest reset (09, R195). -/
inductive ResetCause where
  | powerOn
  | pin
  | soft
  deriving DecidableEq, Repr

/-! ### The slot sense scanner (03, section 3.1) -/

/-- One seating input: its accepted level (true for seated and for closed) and its debounce counter (03, R45). -/
structure Input where
  level : Bool
  count : Nat
  deriving DecidableEq, Repr

/-- The four accepted-level events (03, R46). -/
inductive SeatEvent where
  | presentRise
  | presentFall
  | leverClose
  | leverOpen
  deriving DecidableEq, Repr

/-- The scanner. `delivered` holds the accepted-level events delivered to lanes and not yet taken (03, R46). -/
structure Scanner where
  present : Vector Input 16
  lever : Vector Input 16
  delivered : List (Slot × SeatEvent)
  nextScan : Nat
  deriving DecidableEq, Repr

/-! ### The identification master (03, section 3.4) -/

/-- What the master does for the head slot: nothing (the FIFO is empty), an attempt, or the wait between attempts. -/
inductive MasterPhase where
  | idle
  | attempt
  | waiting (remaining : Nat)
  deriving DecidableEq, Repr

/-- The identification master (03, R60). -/
structure IdMaster where
  fifo : List Slot
  phase : MasterPhase
  nacks : Nat
  losses : Nat
  /-- A seating event has abandoned an attempt in this microsecond, so the attempt's end may still come (03, R66; the model's
  own field, log 26). -/
  abandoned : Bool
  deriving DecidableEq, Repr

/-- Board facts (03, R65). -/
structure BoardFacts where
  boardClass : Byte
  profile : Profile
  exponent : Nat
  serial : Vector Byte 8
  deriving DecidableEq, Repr

/-! ### The lane link (04) -/

/-- A frame (04, R75). A WRITE carries the record's profile encoding as bytes. -/
inductive Frame where
  | wipe
  | write (row : Nat) (enc : List Byte)
  | patch (row : Nat) (groups : Patch)
  | clear (row : Nat)
  | audit (segment : Nat)
  | verify (segment : Nat)
  | align
  | test
  deriving DecidableEq, Repr

/-- The client that gave a burst (04, R81). -/
inductive Client where
  | training
  | job (number : JobNo)
  | applyQueue
  deriving DecidableEq, Repr

/-- The outstanding burst (04, R81). `bytes` is the whole burst as laid out, its check last (10, R202). -/
structure Burst where
  seq : Byte
  frames : List Frame
  bytes : List Byte
  client : Client
  resends : Nat
  snapshot : Option Word32
  deriving DecidableEq, Repr

/-- Transmitter phases (04, R81). -/
inductive TxPhase where
  | idle
  | sending
  | awaiting
  deriving DecidableEq, Repr

/-- A lane's transmitter (04, R80 and R81). -/
structure Transmitter where
  phase : TxPhase
  outstanding : Option Burst
  ackTimer : Timer
  nextSeq : Byte
  deriving DecidableEq, Repr

/-- The replies of a board, after their check (04, R77; 10, R203). A BURST_ACK holds whether its status is OK. -/
inductive Reply where
  | ack (seq : Byte) (ok : Bool) (digest : Option Word32)
  | locked
  | pattern (failures : Nat)
  deriving DecidableEq, Repr

/-! ### Live lanes (05) -/

/-- An apply entry (05, R98). -/
inductive ApplyEntry where
  | write (row : Nat) (enc : List Byte)
  | patch (row : Nat) (groups : Patch)
  | clear (row : Nat)
  | audit (segment : Nat) (digest : Word32)
  deriving DecidableEq, Repr

/-- The live-lane machinery of one lane (05). The repair cursor is absent while `repairs` is empty; otherwise it stands at
the head segment and at `repairOffset` (05, R110). -/
structure Live where
  queue : List ApplyEntry
  watermark : Nat
  alarm : Bool
  auditTimer : Timer
  nextAudit : Nat
  debt : Nat
  mismatches : Nat
  repairs : List Nat
  repairOffset : Nat
  deriving DecidableEq, Repr

/-! ### Lanes (03) -/

/-- Lane states (03, section 3.2). -/
inductive LaneState where
  | empty
  | identifying
  | training
  | ready
  | loading
  | live
  | extracting
  | faulted
  deriving DecidableEq, Repr

/-- Lane causes (03, R49). -/
inductive LaneCause where
  | extraction
  | surpriseRemoval
  | idUnreadable
  | idInvalid
  | trainFail
  | linkErrors
  | released
  deriving DecidableEq, Repr

/-- Training steps (03, R49). -/
inductive TrainStep where
  | align
  | pattern
  deriving DecidableEq, Repr

/-- One lane controller's state (03, R49), with its transmitter (04), its live machinery (05) and its notice mark
(08, R183; log 15). `present` and `lever` are the lane's own view of the slot's accepted levels (03, R46). -/
structure Lane where
  state : LaneState
  cause : Option LaneCause
  facts : Option BoardFacts
  attempt : Nat
  step : Option TrainStep
  present : Bool
  lever : Bool
  testsTaken : Nat
  alignTimer : Timer
  replyTimer : Timer
  tx : Transmitter
  live : Live
  mark : Bool
  deriving DecidableEq, Repr

/-! ### Copy jobs (06, 07) -/

/-- Stall actions (06, R121). -/
inductive StallAction where
  | force
  | abandon
  deriving DecidableEq, Repr

/-- The policy of a job, as stored (06, R121). -/
structure Policy where
  budget : Nat
  stallLimit : Nat
  stallAction : StallAction
  passLimit : Nat
  verify : Bool
  shift : Nat
  deriving DecidableEq, Repr

/-- Causes of a FAILED job (06, R142). -/
inductive JobCause where
  | targetLost
  | laneFault
  | notConverging
  | freezeExhausted
  | verifyExhausted
  deriving DecidableEq, Repr

/-- The five working states of a job, and its terminal outcomes (06, R118 and R119). -/
inductive JobState where
  | wipe
  | sweep
  | drain
  | freeze
  | verify
  | completed
  | failed (cause : JobCause)
  | aborted
  deriving DecidableEq, Repr

/-- Outcomes of a pass-end evaluation (07, R156 and R158). -/
inductive EvalOutcome where
  | freezePredicted
  | freezeForced
  | nextPass
  | abandoned
  deriving DecidableEq, Repr

/-- The last evaluation: its outcome with the dirty count N and the predicted freeze time T used (07, R148). -/
structure Evaluation where
  outcome : EvalOutcome
  dirtyCount : Nat
  time : Nat
  deriving DecidableEq, Repr

/-- A job entry (06, R119), with its convergence fields (07, R148), its verify fields (07, R166) and the entry's notice
mark (08, R183; log 15). `dirty` is the dirty set in ascending order (06, R132). -/
structure Job where
  slot : Slot
  profile : Profile
  state : JobState
  sweepCursor : Nat
  drainCursor : Nat
  dirty : List Nat
  pass : Nat
  previous : Option Nat
  stall : Nat
  freezeAttempts : Nat
  roundsFailed : Nat
  freezeTimer : Timer
  progress : Nat
  policy : Policy
  sampleTimer : Timer
  arrivals : Nat
  sends : Nat
  sampled : Nat
  ea : Nat
  es : Nat
  fastest : Nat
  slowest : Nat
  lastEvaluation : Option Evaluation
  verifySegment : Nat
  answered : Nat
  mismatched : List Nat
  mark : Bool
  deriving DecidableEq, Repr

/-- The grant in progress (06, R124): its job, the frames built so far, the rows examined (06, R129), and whether it takes
no further row (06, R127). -/
structure Grant where
  job : JobNo
  frames : List Frame
  examined : Nat
  closed : Bool
  deriving DecidableEq, Repr

/-! ### Outgoing messages (08, 10) -/

/-- Status codes (08, R178). -/
inductive Status where
  | ok
  | okUnchanged
  | exists_
  | notFound
  | badRecord
  | storeFull
  | hashFull
  | backlog
  | frozen
  | notReady
  | alreadyInit
  | wrongState
  | noJobSlot
  | noJob
  | targetTooSmall
  | badRequest
  deriving DecidableEq, Repr

/-- What a snapshot tells of an outstanding burst (04, R95). -/
structure BurstSnapshot where
  seq : Byte
  frameCount : Nat
  resends : Nat
  client : Client
  deriving DecidableEq, Repr

/-- A lane snapshot (03 R59, 04 R95, 05 R117, 10 R201). -/
structure LaneSnapshot where
  slot : Slot
  state : LaneState
  cause : Option LaneCause
  present : Bool
  lever : Bool
  facts : Option BoardFacts
  attempt : Nat
  step : Option TrainStep
  fifoPosition : Nat
  nacks : Nat
  losses : Nat
  job : Option JobNo
  phase : TxPhase
  nextSeq : Byte
  outstanding : Option BurstSnapshot
  depth : Nat
  watermark : Nat
  alarm : Bool
  debt : Nat
  nextAudit : Nat
  mismatches : Nat
  repairLength : Nat
  cursor : Option (Nat × Nat)
  deriving DecidableEq, Repr

/-- A job snapshot (06 R146, 07 R173, 10 R201). -/
structure JobSnapshot where
  number : JobNo
  slot : Slot
  profile : Profile
  state : JobState
  progress : Nat
  sweepCursor : Nat
  drainCursor : Nat
  dirtyCount : Nat
  pass : Nat
  previous : Option Nat
  stall : Nat
  freezeAttempts : Nat
  roundsFailed : Nat
  freezeTimer : Timer
  policy : Policy
  arrivals : Nat
  sends : Nat
  sampled : Nat
  ea : Nat
  es : Nat
  fastest : Nat
  slowest : Nat
  predicted : Nat
  lastEvaluation : Option Evaluation
  verifySegment : Nat
  answered : Nat
  mismatchedLength : Nat
  deriving DecidableEq, Repr

/-- The body of an outgoing message, by its fields (10, R200 and R201). -/
inductive Payload where
  /-- A refusal's body, and every body of zeros. -/
  | none
  /-- INSERT, UPDATE, RETIRE: the row. -/
  | row (row : Nat)
  /-- FIND and READ_ROW: the row and its record, or the mark "free". -/
  | rowContent (row : Nat) (record : Option Record)
  /-- STORE_INIT: the store size set. -/
  | storeSize (size : Nat)
  /-- STORE_STATS. -/
  | stats (live free overflow size : Nat)
  /-- LANE_STATUS and LANE_NOTICE. -/
  | lane (snapshot : LaneSnapshot)
  /-- LANE_RESET and LANE_RELEASE. -/
  | laneState (slot : Slot) (state : LaneState)
  /-- LANE_CLEAR_ALARM. -/
  | laneDepth (slot : Slot) (depth watermark : Nat)
  /-- COPY_START. -/
  | jobStarted (job : JobNo) (policy : Policy)
  /-- COPY_ABORT. -/
  | jobNumber (job : JobNo)
  /-- COPY_STATUS and JOB_NOTICE. -/
  | job (snapshot : JobSnapshot)
  /-- SET_SCAN; `write` is the action WRITE. -/
  | scanSetting (write : Bool) (count : Nat) (adjusted : Bool)
  /-- SET_LANE_ALARM. -/
  | alarmSetting (write : Bool) (threshold : Nat) (mode : AlarmMode) (adjusted : Bool)
  /-- SET_AUDIT. -/
  | auditSetting (write : Bool) (interval : Nat) (adjusted : Bool)
  /-- IDENTIFY. -/
  | identity (phase : StorePhase) (size : Nat) (cause : ResetCause)
  /-- RESET_DONE. -/
  | resetDone (cause : ResetCause) (phase : StorePhase) (size : Nat)
  deriving DecidableEq, Repr

/-- Kinds of outgoing message that stand on the response queue (08, R181). -/
inductive MessageKind where
  | response
  | laneNotice
  | jobNotice
  | resetDone
  deriving DecidableEq, Repr

/-- An outgoing message (10, section 10.2). `requestKind` is header byte 3. -/
structure OutMessage where
  tag : Tag
  kind : MessageKind
  requestKind : Byte
  status : Status
  overrun : Bool
  body : Payload
  deriving DecidableEq, Repr

end Sys2Proof.Machine
end

