-- ==== Sys2Proof/Machine/State.lean ====
section
/-! DEFINITION. The state of the part as plain data, its values after reset, and the reasons a step can stop. -/

namespace Sys2Proof.Machine

/-- The state of the block. INVENTORY.md lists every field with the rule that names it. -/
structure State where
  /-- The commands that wait, first in, first out. -/
  pending : List Instr
  /-- A reset begun by the application of power lasts (09, R196). -/
  powerOnReset : Bool
  /-- The reset pin is asserted (09, R196). -/
  pinAsserted : Bool
  /-- The request queue, its head first (08, R175). -/
  requests : List (List Byte)
  /-- The response queue, its head first (08, R181). -/
  responses : List OutMessage
  /-- The overrun flag (08, R176). -/
  overrun : Bool
  /-- The response entry reserved for the STORE_INIT in progress, with its tag (08, R180). -/
  storeInitTag : Option Tag
  /-- The search pointer of notice placement (08, R184). -/
  noticePointer : Fin 20
  /-- The settings (09, R189). -/
  settings : Settings
  /-- The cause of the latest reset (09, R195). -/
  resetCause : ResetCause
  /-- How many PCIe interrupt messages have been raised (08, R182): an output, the model's own field (log 8). -/
  interrupts : Nat
  /-- The bytes the last response-port read returned (08, R181): an output, the model's own field (log 8). -/
  readData : List Byte
  /-- The record store (01). -/
  store : Store
  /-- The slot sense scanner (03). -/
  scanner : Scanner
  /-- The identification master (03). -/
  master : IdMaster
  /-- The sixteen lane controllers (03, 04, 05). -/
  lanes : Vector Lane 16
  /-- The job table (06, R118): a free entry is `none`. -/
  jobs : Vector (Option Job) 4
  /-- The grant in progress (06, R124). -/
  grant : Option Grant
  /-- Search pointer of the arbiter's freeze class (06, R126). -/
  freezePointer : JobNo
  /-- Search pointer of the arbiter's load class (06, R126). -/
  loadPointer : JobNo
  deriving DecidableEq, Repr

/-- Why the part could stop with a fault. There is no such reason: the spec gives every command a next state in every
state (its errors are statuses, lane states, job outcomes and ignored replies), so nothing raises a fault. Safe. -/
inductive Fault where
  deriving DecidableEq, Repr

/-- Why a command could be refused. -/
inductive Refusal where
  /-- The command has no meaning yet; raised only by an arm of `exec` for a row not modelled, and no arm does. Safe. -/
  | notModelled (mnemonic : String)
  deriving DecidableEq, Repr

/-- The default settings (09, R189). -/
def Settings.defaults : Settings :=
  { debounce := 8, threshold := 2048, mode := .auto, interval := 10 }

/-- The record store after power-on and after the pin (01, R23): it holds nothing. -/
def Store.reset : Store :=
  { phase := .uninitialized, size := 0, rows := [], freed := [], fresh := 0, ways := [], overflow := []
    fullDigests := [], compactDigests := [] }

/-- A seating input after any reset (03, R48). -/
def Input.reset : Input := { level := false, count := 0 }

/-- The scanner when a reset ends: the first scan comes 1 ms later (03, R48). -/
def Scanner.reset : Scanner :=
  { present := Vector.replicate 16 Input.reset, lever := Vector.replicate 16 Input.reset, delivered := []
    nextScan := 1000 }

/-- The identification master after any reset (03, R74). -/
def IdMaster.reset : IdMaster := { fifo := [], phase := .idle, nacks := 0, losses := 0, abandoned := false }

/-- A transmitter after any reset (04, R96). -/
def Transmitter.reset : Transmitter := { phase := .idle, outstanding := none, ackTimer := none, nextSeq := 0 }

/-- A lane's live state after any reset (05, R116). -/
def Live.reset : Live :=
  { queue := [], watermark := 0, alarm := false, auditTimer := none, nextAudit := 0, debt := 0, mismatches := 0
    repairs := [], repairOffset := 0 }

/-- A lane after any reset (03, R73), its notice mark clear (08, R188). -/
def Lane.reset : Lane :=
  { state := .empty, cause := none, facts := none, attempt := 0, step := none, present := false, lever := false
    testsTaken := 0, alignTimer := none, replyTimer := none, tx := Transmitter.reset, live := Live.reset
    mark := false }

/-- The RESET_DONE message (08, R187): the tag and the kind byte of the SOFT_RESET, or 0 and 0. -/
def OutMessage.resetDone (tag : Tag) (requestKind : Byte) (cause : ResetCause) (store : Store) : OutMessage :=
  { tag, kind := .resetDone, requestKind, status := .ok, overrun := false
    body := .resetDone cause store.phase store.size }

/-- The machine right after the power-on reset has ended: every block at its power-on values, the settings at their
defaults, the cause POWER_ON, and RESET_DONE alone on the response queue with its interrupt raised
(01 R23, 03 R48 R73 R74, 04 R96, 05 R116, 06 R147, 08 R187 R188, 09 R189 R195; log 7, log 8). -/
def State.reset : State :=
  { pending := []
    powerOnReset := false
    pinAsserted := false
    requests := []
    responses := [OutMessage.resetDone 0 0 .powerOn Store.reset]
    overrun := false
    storeInitTag := none
    noticePointer := 0
    settings := Settings.defaults
    resetCause := .powerOn
    interrupts := 1
    readData := []
    store := Store.reset
    scanner := Scanner.reset
    master := IdMaster.reset
    lanes := Vector.replicate 16 Lane.reset
    jobs := Vector.replicate 4 none
    grant := none
    freezePointer := 0
    loadPointer := 0 }

end Sys2Proof.Machine
end

