-- ==== Sys2Proof/Machine/Operands.lean ====
section
/-! DEFINITION. Operand forms: byte order, the fields of a request message (10, section 10.2), the record field (10, R199),
key checks and canonicalisation (01, R2 to R5), the replies of a board (10, R203) and the descriptor (10, R204). -/

namespace Sys2Proof.Machine

/-! ### Byte order (10: most significant byte first) -/

/-- Byte `i` of a message; a byte that the message does not have reads as 0. -/
def byteAt (m : List Byte) (i : Nat) : Byte := m.getD i 0

/-- Byte `i` as a number. -/
def natAt (m : List Byte) (i : Nat) : Nat := (byteAt m i).toNat

/-- A list of bytes as an unsigned number, most significant byte first. -/
def ofBytes (bytes : List Byte) : Nat := bytes.foldl (fun n b => n * 256 + b.toNat) 0

/-- The number in the `n` bytes from byte `i` on. -/
def fieldAt (m : List Byte) (i n : Nat) : Nat := ofBytes ((List.range n).map fun k => byteAt m (i + k))

/-- A number as `n` bytes, most significant byte first. -/
def toBytes : Nat → Nat → List Byte
  | 0, _ => []
  | n + 1, v => toBytes n (v / 256) ++ [BitVec.ofNat 8 v]

/-- A flag as one byte. -/
def boolByte (b : Bool) : Byte := if b then 1 else 0

/-! ### Request header (10, section 10.2) -/

/-- The tag: bytes 0 and 1. -/
def tagOf (m : List Byte) : Tag := BitVec.ofNat 16 (fieldAt m 0 2)

/-- The request kind code: byte 2. -/
def kindOf (m : List Byte) : Byte := byteAt m 2

/-- A slot number, when it is in 0..15. -/
def slotOf (b : Byte) : Option Slot := if h : b.toNat < 16 then some ⟨b.toNat, h⟩ else none

/-- A job number, when it is in 0..3. -/
def jobOf (b : Byte) : Option JobNo := if h : b.toNat < 4 then some ⟨b.toNat, h⟩ else none

/-! ### Keys (01, R1 to R3) -/

/-- The kind of a key. -/
def Key.kind : Key → Kind
  | .v4 .. => .v4
  | .v6 .. => .v6
  | .label .. => .label

/-- The key is in range (01, R3). An unknown kind code never becomes a `Key`. -/
def Key.valid : Key → Bool
  | .v4 table plen _ => decide (table ≤ 4095 ∧ plen ≤ 32)
  | .v6 table plen _ => decide (table ≤ 4095 ∧ plen ≤ 128)
  | .label table value => decide (table ≤ 4095 ∧ value ≤ 1048575)

/-- The address with every bit beyond the first `plen` cleared (01, R2). -/
def clearBeyond {w : Nat} (plen : Nat) (addr : BitVec w) : BitVec w := addr &&& ~~~(BitVec.allOnes w >>> plen)

/-- The canonical key (01, R2). -/
def Key.canonical : Key → Key
  | .v4 table plen addr => .v4 table plen (clearBeyond plen addr)
  | .v6 table plen addr => .v6 table plen (clearBeyond plen addr)
  | .label table value => .label table value

/-- The key fields of a record field at byte 8, as received (10, R199): `none` for an unknown kind code. -/
def readKey (m : List Byte) : Option Key :=
  match natAt m 8 with
  | 1 => some (.v4 (fieldAt m 9 2) (natAt m 11) (BitVec.ofNat 32 (fieldAt m 12 4)))
  | 2 => some (.v6 (fieldAt m 9 2) (natAt m 11) (BitVec.ofNat 128 (fieldAt m 12 16)))
  | 3 => some (.label (fieldAt m 9 2) (fieldAt m 28 4))
  | _ => none

/-- The canonical key a request names, or `none` where the key breaks R3 (01 R2 R3, 02 R26). -/
def requestKey (m : List Byte) : Option Key :=
  match readKey m with
  | some key => if key.valid then some key.canonical else none
  | none => none

/-! ### Bodies (01, R4 and R5; 10, R199) -/

/-- Next-hop slot `i` of a record field. -/
def readHop (m : List Byte) (i : Nat) : NextHop :=
  { slot := natAt m (34 + 5 * i), port := natAt m (35 + 5 * i), rewrite := fieldAt m (36 + 5 * i) 2
    weight := natAt m (38 + 5 * i) }

/-- An entry in range (01, R4): slot 0..15, port 0..63, weight not 0. The rewrite index takes any value. -/
def NextHop.valid (h : NextHop) : Bool := decide (h.slot ≤ 15 ∧ h.port ≤ 63 ∧ 1 ≤ h.weight)

/-- The action code (10, R199): `none` when it is not FORWARD, DROP or PUNT. -/
def readAction (m : List Byte) : Option Action :=
  match natAt m 32 with
  | 1 => some .forward
  | 2 => some .drop
  | 3 => some .punt
  | _ => none

/-- The next-hop list under an action (01, R4): with FORWARD 1..8 valid entries or `none`; with DROP and PUNT empty, the
carried entries discarded unchecked. -/
def readHops (m : List Byte) : Action → Option (List NextHop)
  | .forward =>
    let count := natAt m 33
    let hops := (List.range count).map (readHop m)
    if 1 ≤ count ∧ count ≤ 8 ∧ hops.all NextHop.valid then some hops else none
  | .drop => some []
  | .punt => some []

/-- The counter index (01, R5): `none` where it is above 262,143, `some none` where it is absent. -/
def readCounter (m : List Byte) : Option (Option Nat) :=
  if natAt m 74 = 0 then some none
  else if fieldAt m 75 4 ≤ 262143 then some (some (fieldAt m 75 4)) else none

/-- The class override (01, R5): `none` where it is above 7, `some none` where it is absent. -/
def readClass (m : List Byte) : Option (Option Nat) :=
  if natAt m 79 = 0 then some none
  else if natAt m 80 ≤ 7 then some (some (natAt m 80)) else none

/-- The canonical body of a record field, or `none` where it breaks R4 or R5 (01, R6). -/
def requestBody (m : List Byte) : Option Body :=
  match readAction m with
  | none => none
  | some action =>
    match readHops m action, readCounter m, readClass m with
    | some hops, some counter, some cls => some { action, hops, counter, cls }
    | _, _, _ => none

/-- The canonical record of a request, or `none` where it is not valid (01, R6). -/
def requestRecord (m : List Byte) : Option Record :=
  match requestKey m, requestBody m with
  | some key, some body => some { key, body }
  | _, _ => none

/-! ### Checks of bursts and replies (04, R79) -/

/-- One single-bit step of the burst check (04, R79). -/
def burstCheckStep (r : Byte) : Byte := if r.msb then (r <<< 1) ^^^ 7#8 else r <<< 1

/-- One byte taken into the burst check: XOR, then eight single-bit steps. -/
def burstCheckByte (r b : Byte) : Byte :=
  burstCheckStep (burstCheckStep (burstCheckStep (burstCheckStep
    (burstCheckStep (burstCheckStep (burstCheckStep (burstCheckStep (r ^^^ b))))))))

/-- The burst check of a byte string (04, R79): generator x^8 + x^2 + x + 1, initial value 0. -/
def burstCheck (bytes : List Byte) : Byte := bytes.foldl burstCheckByte 0

/-- The last byte of a reply is the check of the bytes before it (04, R77; 10, R203). -/
def checkMatches (reply : List Byte) : Bool := reply.getLast? == some (burstCheck reply.dropLast)

/-- The reply in a unit that arrived, or `none` where the lane discards it (04, R77; 10, R203). -/
def readReply (reply : List Byte) : Option Reply :=
  if checkMatches reply then
    match natAt reply 0 with
    | 1 =>
      if reply.length = 9 ∧ natAt reply 2 ≤ 1 then
        some (.ack (byteAt reply 1) (natAt reply 2 == 0)
          (if natAt reply 3 = 0 then none else some (BitVec.ofNat 32 (fieldAt reply 4 4))))
      else none
    | 2 => if reply.length = 2 then some .locked else none
    | 3 => if reply.length = 3 ∧ natAt reply 1 ≤ 64 then some (.pattern (natAt reply 1)) else none
    | _ => none
  else none

/-! ### The descriptor (03, R64 and R65; 10, R204) -/

/-- The board facts of a valid descriptor, or `none` where it breaks one of the four conditions of R64. -/
def readDescriptor (d : Vector Byte 16) : Option BoardFacts :=
  if (d.toList.foldl (fun n b => n + b.toNat) 0) % 256 = 0 ∧ d[0].toNat = 1 ∧
      (d[2].toNat = 1 ∨ d[2].toNat = 2) ∧ 16 ≤ d[3].toNat ∧ d[3].toNat ≤ 20 then
    some { boardClass := d[1], profile := if d[2].toNat = 1 then .compact else .full, exponent := d[3].toNat
           serial := #v[d[6], d[7], d[8], d[9], d[10], d[11], d[12], d[13]] }
  else none

end Sys2Proof.Machine
end

