-- ==== Sys2Proof/Machine/Encoding.lean ====
section
/-! DEFINITION. The record encoder (01 R8 R9, 02 R34 to R40, 10 R197 R198) and the layout of bursts (10, R202). -/

namespace Sys2Proof.Machine

/-! ### CRC-32 (01, R9) -/

/-- The bit-reversed generator polynomial of 0x04C11DB7 (01, R9). -/
def crcPolynomial : Word32 := 0xEDB88320#32

/-- One single-bit step: toward the least significant end, XOR with the reversed polynomial when a one leaves. -/
def crcStep (r : Word32) : Word32 := if r.getLsbD 0 then (r >>> 1) ^^^ crcPolynomial else r >>> 1

/-- One byte taken into the register: XOR into its low 8 bits, then eight single-bit steps. -/
def crcByte (r : Word32) (b : Byte) : Word32 :=
  crcStep (crcStep (crcStep (crcStep (crcStep (crcStep (crcStep (crcStep (r ^^^ b.setWidth 32))))))))

/-- The CRC-32 of a byte string (01, R9). -/
def crc32 (bytes : List Byte) : Word32 := ~~~(bytes.foldl crcByte (BitVec.allOnes 32))

/-! ### Narrowing (02, section 2.5) -/

/-- The entry at position `i` of a list is among the four kept (02, R38): fewer than four entries come before it in the
order of higher weight first, and among equal weights earlier first. -/
def keptByTrim (hops : List NextHop) (i : Nat) (h : NextHop) : Bool :=
  decide ((hops.zipIdx.countP fun (g, k) => decide (h.weight < g.weight ∨ (g.weight = h.weight ∧ k < i))) < 4)

/-- The next-hop list trimmed to at most four entries, in list order (02, R38). -/
def trimHops (hops : List NextHop) : List NextHop :=
  (hops.zipIdx.filter fun (h, i) => keptByTrim hops i h).map Prod.fst

/-- The narrowed weight (02, R39): floor((w + 8) ÷ 17), and 1 in place of 0. -/
def narrowWeight (w : Nat) : Nat := max 1 ((w + 8) / 17)

/-- A kept entry with its weight narrowed (02, R39). -/
def NextHop.narrow (h : NextHop) : NextHop := { h with weight := narrowWeight h.weight }

/-- The narrowed counter index (02, R40). -/
def narrowCounter : Option Nat → Option Nat
  | some c => if c ≤ 65535 then some c else none
  | none => none

/-- The body as a compact-profile board holds it (02, R38 to R40). -/
def Body.narrow (b : Body) : Body :=
  { action := b.action, hops := (trimHops b.hops).map NextHop.narrow, counter := narrowCounter b.counter, cls := none }

/-- The body as a board of the profile holds it (01, R8). -/
def Body.inProfile (b : Body) : Profile → Body
  | .full => b
  | .compact => b.narrow

/-- The profile accepts the kind (01, R8). -/
def Profile.accepts : Profile → Kind → Bool
  | .full, _ => true
  | .compact, .label => false
  | .compact, _ => true

/-! ### Record encodings (10, R197 and R198) -/

/-- The key encoding of a canonical key (10, R197). -/
def Key.encode : Key → List Byte
  | .v4 table plen addr => 1#8 :: toBytes 2 table ++ toBytes 1 plen ++ toBytes 4 addr.toNat
  | .v6 table plen addr => 2#8 :: toBytes 2 table ++ toBytes 1 plen ++ toBytes 16 addr.toNat
  | .label table value => 3#8 :: toBytes 2 table ++ toBytes 3 value

/-- The action byte (10, R198). -/
def Action.code : Action → Byte
  | .forward => 1
  | .drop => 2
  | .punt => 3

/-- A next-hop entry's five bytes (10, R198). -/
def NextHop.encode (h : NextHop) : List Byte :=
  toBytes 1 h.slot ++ toBytes 1 h.port ++ toBytes 2 h.rewrite ++ toBytes 1 h.weight

/-- A next-hop list: its count byte and its entries (10, R198). -/
def encodeHops (hops : List NextHop) : List Byte := toBytes 1 hops.length ++ hops.flatMap NextHop.encode

/-- A counter index: 16,777,215 for absent (10, R198). -/
def encodeCounter : Option Nat → List Byte
  | some c => toBytes 3 c
  | none => toBytes 3 16777215

/-- A class override: 255 for absent (10, R198). -/
def encodeClass : Option Nat → List Byte
  | some c => toBytes 1 c
  | none => toBytes 1 255

/-- The profile encoding of a canonical record (10, R198). -/
def Record.encode (r : Record) : Profile → List Byte
  | .full =>
    r.key.encode ++ [r.body.action.code] ++ encodeHops r.body.hops ++ encodeCounter r.body.counter
      ++ encodeClass r.body.cls
  | .compact =>
    let b := r.body.narrow
    r.key.encode ++ [b.action.code] ++ encodeHops b.hops ++ encodeCounter b.counter

/-- A record's contribution to the digest of a profile (01, R20): the CRC-32 of its profile encoding, or 0 (no
contribution) where the profile does not accept its kind. -/
def Record.digest (r : Record) (p : Profile) : Word32 :=
  if p.accepts r.key.kind then crc32 (r.encode p) else 0

/-! ### The form of an UPDATE's apply entry (02, R35 and R36) -/

/-- The changed groups between two bodies as a board of the profile holds them, each with its new value (02, R36). The
compact profile has no class group. -/
def changedGroups (p : Profile) (old new : Body) : Patch :=
  let a := old.inProfile p
  let b := new.inProfile p
  { action := if a.action = b.action then none else some b.action
    hops := if a.hops = b.hops then none else some b.hops
    counter := if a.counter = b.counter then none else some b.counter
    cls := if a.cls = b.cls then none else some b.cls }

/-- The number of groups a PATCH carries. -/
def Patch.count (g : Patch) : Nat :=
  g.action.isSome.toNat + g.hops.isSome.toNat + g.counter.isSome.toNat + g.cls.isSome.toNat

/-- The field groups of a profile (02, R35). -/
def Profile.groups : Profile → Nat
  | .full => 4
  | .compact => 3

/-- The apply entry of an UPDATE for a lane of the profile (02, R35): none, PATCH, or WRITE. -/
def updateEntry (p : Profile) (row : Nat) (old new : Record) : Option ApplyEntry :=
  let g := changedGroups p old.body new.body
  if g.count = 0 then none
  else if g.count * 2 ≤ p.groups then some (.patch row g)
  else some (.write row (new.encode p))

/-! ### Frames and bursts (10, section 10.3) -/

/-- The group mask of a PATCH (10, R202). -/
def Patch.mask (g : Patch) : Nat :=
  g.action.isSome.toNat + 2 * g.hops.isSome.toNat + 4 * g.counter.isSome.toNat + 8 * g.cls.isSome.toNat

/-- The groups of a PATCH after its mask (10, R202). -/
def Patch.encode (g : Patch) : List Byte :=
  (g.action.elim [] fun a => [a.code]) ++ (g.hops.elim [] encodeHops) ++ (g.counter.elim [] encodeCounter)
    ++ (g.cls.elim [] encodeClass)

/-- The content of a TEST frame: 0, 8, 16 … 248 (10, section 10.3). -/
def testContent : List Byte := (List.range 32).map fun k => BitVec.ofNat 8 (8 * k)

/-- The bytes of a frame (10, section 10.3). -/
def Frame.encode : Frame → List Byte
  | .wipe => [1#8]
  | .write row enc => 2#8 :: toBytes 3 row ++ toBytes 1 enc.length ++ enc
  | .patch row g => 3#8 :: toBytes 3 row ++ toBytes 1 g.mask ++ g.encode
  | .clear row => 4#8 :: toBytes 3 row
  | .audit segment => 5#8 :: toBytes 1 segment
  | .verify segment => 6#8 :: toBytes 1 segment
  | .align => [7#8, 85#8, 170#8, 85#8, 170#8]
  | .test => 8#8 :: testContent

/-- The bytes of a burst before its check (10, R202). -/
def burstBody (seq : Byte) (frames : List Frame) : List Byte :=
  seq :: toBytes 1 frames.length ++ frames.flatMap Frame.encode

/-- The whole burst as the transmitter lays it out, its check last (10, R202). -/
def layoutBurst (seq : Byte) (frames : List Frame) : List Byte :=
  burstBody seq frames ++ [burstCheck (burstBody seq frames)]

/-- The frame of an apply entry (04, R90). -/
def ApplyEntry.frame : ApplyEntry → Frame
  | .write row enc => .write row enc
  | .patch row g => .patch row g
  | .clear row => .clear row
  | .audit segment _ => .audit segment

/-- The frame asks for a digest: AUDIT or VERIFY (04, R76 and R85). -/
def Frame.asksDigest : Frame → Bool
  | .audit _ => true
  | .verify _ => true
  | _ => false

/-- The frame counts as a send: WRITE or CLEAR (06, R135; 07, R150). -/
def Frame.isSend : Frame → Bool
  | .write .. => true
  | .clear _ => true
  | _ => false

end Sys2Proof.Machine
end

