-- ==== Sys2Proof/Machine/Layout.lean ====
section
/-! DEFINITION. The bytes of an outgoing message (10, section 10.2): codes, record field, bodies and snapshots. -/

namespace Sys2Proof.Machine

/-! ### Codes -/

/-- Status codes (10, section 10.2). -/
def Status.code : Status → Nat
  | .ok => 0
  | .okUnchanged => 1
  | .exists_ => 2
  | .notFound => 3
  | .badRecord => 4
  | .storeFull => 5
  | .hashFull => 6
  | .backlog => 7
  | .frozen => 8
  | .notReady => 9
  | .alreadyInit => 10
  | .wrongState => 11
  | .noJobSlot => 12
  | .noJob => 13
  | .targetTooSmall => 14
  | .badRequest => 15

/-- Message kinds (10, section 10.2); 0 is NONE, which never stands on the queue. -/
def MessageKind.code : MessageKind → Nat
  | .response => 1
  | .laneNotice => 2
  | .jobNotice => 3
  | .resetDone => 4

/-- Store states (10, R200). -/
def StorePhase.code : StorePhase → Nat
  | .uninitialized => 0
  | .initializing => 1
  | .initialized => 2

/-- Reset causes (10, R200). -/
def ResetCause.code : ResetCause → Nat
  | .powerOn => 1
  | .pin => 2
  | .soft => 3

/-- Lag-alarm modes (10, R200). -/
def AlarmMode.code : AlarmMode → Nat
  | .auto => 1
  | .sticky => 2

/-- Stall actions (10, R200). -/
def StallAction.code : StallAction → Nat
  | .force => 1
  | .abandon => 2

/-- The settings action (10, R200): 1 READ, 2 WRITE. -/
def actionCode (write : Bool) : Nat := if write then 2 else 1

/-- Profiles (10, R201). -/
def Profile.code : Profile → Nat
  | .compact => 1
  | .full => 2

/-- Lane states (10, R201). -/
def LaneState.code : LaneState → Nat
  | .empty => 0
  | .identifying => 1
  | .training => 2
  | .ready => 3
  | .loading => 4
  | .live => 5
  | .extracting => 6
  | .faulted => 7

/-- Lane causes; 0 for absent (10, R201). -/
def laneCauseCode : Option LaneCause → Nat
  | none => 0
  | some .extraction => 1
  | some .surpriseRemoval => 2
  | some .idUnreadable => 3
  | some .idInvalid => 4
  | some .trainFail => 5
  | some .linkErrors => 6
  | some .released => 7

/-- Training steps; 0 for absent (10, R201). -/
def stepCode : Option TrainStep → Nat
  | none => 0
  | some .align => 1
  | some .pattern => 2

/-- Transmitter phases (10, R201). -/
def TxPhase.code : TxPhase → Nat
  | .idle => 0
  | .sending => 1
  | .awaiting => 2

/-- The outstanding burst's client (10, R201). -/
def Client.code : Client → Nat
  | .training => 1
  | .applyQueue => 2
  | .job j => 4 + j.val

/-- Job states (10, R201). -/
def JobState.code : JobState → Nat
  | .wipe => 1
  | .sweep => 2
  | .drain => 3
  | .freeze => 4
  | .verify => 5
  | .completed => 6
  | .failed _ => 7
  | .aborted => 8

/-- Job causes; 0 for absent (10, R201). -/
def JobState.causeCode : JobState → Nat
  | .failed .targetLost => 1
  | .failed .laneFault => 2
  | .failed .notConverging => 3
  | .failed .freezeExhausted => 4
  | .failed .verifyExhausted => 5
  | _ => 0

/-- Evaluation outcomes (10, R201). -/
def EvalOutcome.code : EvalOutcome → Nat
  | .freezePredicted => 1
  | .freezeForced => 2
  | .nextPass => 3
  | .abandoned => 4

/-! ### The record field of a response (10, section 10.2.1) -/

/-- Bytes 8 to 31 of the layout: kind, table id, prefix length, address and label; unused bytes are zero. -/
def Key.field : Key → List Byte
  | .v4 table plen addr =>
    1#8 :: toBytes 2 table ++ toBytes 1 plen ++ toBytes 4 addr.toNat ++ List.replicate 12 0 ++ List.replicate 4 0
  | .v6 table plen addr =>
    2#8 :: toBytes 2 table ++ toBytes 1 plen ++ toBytes 16 addr.toNat ++ List.replicate 4 0
  | .label table value =>
    3#8 :: toBytes 2 table ++ List.replicate 1 0 ++ List.replicate 16 0 ++ toBytes 4 value

/-- The eight next-hop slots; unused slots are zero. -/
def hopsField (hops : List NextHop) : List Byte :=
  (hops.flatMap NextHop.encode ++ List.replicate 40 0).take 40

/-- An optional group: a present byte and `n` value bytes. -/
def optionField (n : Nat) : Option Nat → List Byte
  | some v => 1#8 :: toBytes n v
  | none => 0#8 :: List.replicate n 0

/-- The record field, 73 bytes (10, section 10.2.1). -/
def Record.field (r : Record) : List Byte :=
  r.key.field ++ [r.body.action.code] ++ toBytes 1 r.body.hops.length ++ hopsField r.body.hops
    ++ optionField 4 r.body.counter ++ optionField 1 r.body.cls

/-! ### Snapshots (10, R201) -/

/-- Board facts in a lane snapshot: the present byte and eleven bytes, all zero where the facts are absent. -/
def factsField : Option BoardFacts → List Byte
  | none => List.replicate 12 0
  | some f => [1#8, f.boardClass] ++ toBytes 1 f.profile.code ++ toBytes 1 f.exponent ++ f.serial.toList

/-- The outstanding burst in a lane snapshot: sequence, frame count, resend count, client; zero when none. -/
def burstField : Option BurstSnapshot → List Byte
  | none => List.replicate 4 0
  | some b => [b.seq] ++ toBytes 1 b.frameCount ++ toBytes 1 b.resends ++ toBytes 1 b.client.code

/-- The repair cursor in a lane snapshot. -/
def cursorField : Option (Nat × Nat) → List Byte
  | none => List.replicate 4 0
  | some (segment, offset) => 1#8 :: toBytes 1 segment ++ toBytes 2 offset

/-- A lane snapshot's 43 bytes (10, R201). -/
def LaneSnapshot.encode (l : LaneSnapshot) : List Byte :=
  toBytes 1 l.slot.val ++ toBytes 1 l.state.code ++ toBytes 1 (laneCauseCode l.cause)
    ++ [boolByte l.present, boolByte l.lever] ++ factsField l.facts
    ++ toBytes 1 l.attempt ++ toBytes 1 (stepCode l.step)
    ++ toBytes 1 l.fifoPosition ++ toBytes 1 l.nacks ++ toBytes 1 l.losses
    ++ toBytes 1 (l.job.elim 255 fun j => j.val)
    ++ toBytes 1 l.phase.code ++ [l.nextSeq] ++ burstField l.outstanding
    ++ toBytes 2 l.depth ++ toBytes 2 l.watermark
    ++ [boolByte l.alarm] ++ toBytes 1 l.debt ++ toBytes 1 l.nextAudit
    ++ toBytes 2 l.mismatches ++ toBytes 1 l.repairLength ++ cursorField l.cursor

/-- The policy's seven bytes (10, R200 and R201). -/
def Policy.encode (p : Policy) : List Byte :=
  toBytes 2 p.budget ++ toBytes 1 p.stallLimit ++ toBytes 1 p.stallAction.code ++ toBytes 1 p.passLimit
    ++ [boolByte p.verify] ++ toBytes 1 p.shift

/-- The last evaluation's nine bytes (10, R201). -/
def evaluationField : Option Evaluation → List Byte
  | none => List.replicate 9 0
  | some e => toBytes 1 e.outcome.code ++ toBytes 4 e.dirtyCount ++ toBytes 4 e.time

/-- A job snapshot's 73 bytes (10, R201). -/
def JobSnapshot.encode (j : JobSnapshot) : List Byte :=
  toBytes 1 j.number.val ++ toBytes 1 j.slot.val ++ toBytes 1 j.profile.code
    ++ toBytes 1 j.state.code ++ toBytes 1 j.state.causeCode ++ toBytes 1 j.progress
    ++ toBytes 4 j.sweepCursor ++ toBytes 4 j.drainCursor ++ toBytes 4 j.dirtyCount
    ++ toBytes 1 j.pass ++ optionField 4 j.previous
    ++ toBytes 1 j.stall ++ toBytes 1 j.freezeAttempts ++ toBytes 1 j.roundsFailed
    ++ optionField 4 j.freezeTimer ++ j.policy.encode
    ++ toBytes 2 j.arrivals ++ toBytes 2 j.sends ++ toBytes 2 j.sampled
    ++ toBytes 4 j.ea ++ toBytes 4 j.es ++ toBytes 2 j.fastest ++ toBytes 2 j.slowest
    ++ toBytes 4 j.predicted ++ evaluationField j.lastEvaluation
    ++ toBytes 1 j.verifySegment ++ toBytes 1 j.answered ++ toBytes 1 j.mismatchedLength

/-! ### Bodies and messages (10, R200) -/

/-- The body's bytes from byte 8 on, before the zeros that fill it to 120. -/
def Payload.encode : Payload → List Byte
  | .none => []
  | .row r => toBytes 4 r
  | .rowContent r record =>
    toBytes 4 r ++ [boolByte record.isSome] ++ List.replicate 3 0 ++ record.elim [] Record.field
  | .storeSize size => toBytes 4 size
  | .stats live free overflow size => toBytes 4 live ++ toBytes 4 free ++ toBytes 2 overflow ++ toBytes 4 size
  | .lane snapshot => snapshot.encode
  | .laneState slot state => toBytes 1 slot.val ++ toBytes 1 state.code
  | .laneDepth slot depth watermark => toBytes 1 slot.val ++ toBytes 2 depth ++ toBytes 2 watermark
  | .jobStarted j policy => toBytes 1 j.val ++ policy.encode
  | .jobNumber j => toBytes 1 j.val
  | .job snapshot => snapshot.encode
  | .scanSetting write count adjusted => toBytes 1 (actionCode write) ++ toBytes 2 count ++ [boolByte adjusted]
  | .alarmSetting write threshold mode adjusted =>
    toBytes 1 (actionCode write) ++ toBytes 2 threshold ++ toBytes 1 mode.code ++ [boolByte adjusted]
  | .auditSetting write interval adjusted =>
    toBytes 1 (actionCode write) ++ toBytes 2 interval ++ [boolByte adjusted]
  | .identity phase size cause =>
    toBytes 2 Config.vendorCode ++ toBytes 2 Config.partCode ++ toBytes 1 Config.revision
      ++ toBytes 1 phase.code ++ toBytes 4 size ++ toBytes 1 cause.code
  | .resetDone cause phase size => toBytes 1 cause.code ++ toBytes 1 phase.code ++ toBytes 4 size

/-- The 128 bytes of an outgoing message (10, section 10.2). -/
def OutMessage.encode (m : OutMessage) : List Byte :=
  (toBytes 2 m.tag.toNat ++ toBytes 1 m.kind.code ++ [m.requestKind] ++ toBytes 1 m.status.code
    ++ [boolByte m.overrun] ++ List.replicate 2 0 ++ m.body.encode ++ List.replicate 120 0).take Config.messageBytes

/-- The NONE message: 128 zero bytes (10, section 10.2). -/
def noneMessage : List Byte := List.replicate Config.messageBytes 0

end Sys2Proof.Machine
end

