-- ==== Sys2Proof/Machine/Store.lean ====
section
/-! DEFINITION. The record store: the row table, the free-row stack, the key index and the digests (01). -/

namespace Sys2Proof.Machine

/-! ### The row table (01, R10; log 12) -/

/-- The row table: (row, record), rows strictly rising; an unlisted row is free. -/
abbrev RowTable := List (Nat × Record)

/-- The table's canonical form: rows strictly rising. -/
abbrev Memory.wf (t : RowTable) : Prop := t.Pairwise fun a b => a.1 < b.1

/-- What a row holds: its record, or `none` for a free row (01, R10 and R22). -/
def Memory.read (t : RowTable) (row : Nat) : Option Record := (t.find? fun c => c.1 == row).map Prod.snd

/-- Write a record into a row, keeping the rows in rising order. -/
def Memory.write (t : RowTable) (row : Nat) (r : Record) : RowTable :=
  match t with
  | [] => [(row, r)]
  | c :: rest =>
    if row < c.1 then (row, r) :: c :: rest
    else if row = c.1 then (row, r) :: rest
    else c :: Memory.write rest row r

/-- Free a row: it holds no record and its former content is not kept (01, R10). -/
def Memory.free (t : RowTable) (row : Nat) : RowTable := t.filter fun c => c.1 != row

/-- What a row of the store holds (01, R22). -/
def Store.row (s : Store) (row : Nat) : Option Record := Memory.read s.rows row

/-- The row is in the profile (01, R8). -/
def Store.rowInProfile (s : Store) (p : Profile) (row : Nat) : Bool :=
  match s.row row with
  | some r => p.accepts r.key.kind
  | none => false

/-- Segments of the store (01, R11). -/
def Store.segments (s : Store) : Nat := s.size / Config.segmentRows

/-! ### The free-row stack (01, R15; log 9) -/

/-- The free-row stack, its top first. -/
def Store.freeRows (s : Store) : List Nat := s.freed ++ List.range' s.fresh (s.size - s.fresh)

/-- The number of free rows (01, R15). -/
def Store.freeCount (s : Store) : Nat := s.freed.length + (s.size - s.fresh)

/-- The row on top of the stack. -/
def Store.topRow (s : Store) : Option Nat :=
  match s.freed with
  | row :: _ => some row
  | [] => if s.fresh < s.size then some s.fresh else none

/-- The stack without its top. -/
def Store.popRow (s : Store) : Store :=
  match s.freed with
  | _ :: rest => { s with freed := rest }
  | [] => { s with fresh := s.fresh + 1 }

/-- A row pushed onto the stack. -/
def Store.pushRow (s : Store) (row : Nat) : Store := { s with freed := row :: s.freed }

/-! ### The key index (01, R16 to R19; log 16) -/

/-- Buckets of the key index (01, R16). -/
def Store.buckets (s : Store) : Nat := s.size / 4

/-- The bucket of a canonical key (01, R16). -/
def Store.bucketOf (s : Store) (k : Key) : Nat := (crc32 k.encode).toNat % s.buckets

/-- The way holds the key in the bucket. -/
def Way.holds (w : Way) (bucket : Nat) (k : Key) : Bool := w.bucket == bucket && w.entry.key == k

/-- Lookup of a canonical key: the ways of its bucket, then the overflow list (01, R17). -/
def Store.lookup (s : Store) (k : Key) : Option Nat :=
  match s.ways.find? fun w => w.holds (s.bucketOf k) k with
  | some w => some w.entry.row
  | none => (s.overflow.find? fun e => e.key == k).map IndexEntry.row

/-- Occupied ways of a bucket. -/
def Store.bucketLoad (s : Store) (bucket : Nat) : Nat := s.ways.countP fun w => w.bucket == bucket

/-- The index can place the key (01, R18). -/
def Store.canPlace (s : Store) (k : Key) : Bool :=
  decide (s.bucketLoad (s.bucketOf k) < Config.bucketWays) || decide (s.overflow.length < Config.overflowCapacity)

/-- Place an entry in a free way of its bucket, or else at the tail of the overflow list (01, R18). -/
def Store.placeEntry (s : Store) (e : IndexEntry) : Store :=
  if s.bucketLoad (s.bucketOf e.key) < Config.bucketWays then
    { s with ways := { bucket := s.bucketOf e.key, entry := e } :: s.ways }
  else { s with overflow := s.overflow ++ [e] }

/-- Remove a key's entry. An entry that stood in a way leaves it free, and the oldest overflow entry of the same bucket
moves into it; an entry that stood in the overflow list only leaves it (01, R19). -/
def Store.removeEntry (s : Store) (k : Key) : Store :=
  let bucket := s.bucketOf k
  if s.ways.any fun w => w.holds bucket k then
    let ways := s.ways.eraseP fun w => w.holds bucket k
    match s.overflow.find? fun e => s.bucketOf e.key == bucket with
    | some e =>
      { s with ways := { bucket, entry := e } :: ways
               overflow := s.overflow.eraseP fun e => s.bucketOf e.key == bucket }
    | none => { s with ways }
  else { s with overflow := s.overflow.eraseP fun e => e.key == k }

/-! ### Digests (01, R20 and R21) -/

/-- The digest of a segment in a profile (01, R22). -/
def Store.digest (s : Store) (p : Profile) (segment : Nat) : Word32 :=
  match p with
  | .full => s.fullDigests.getD segment 0
  | .compact => s.compactDigests.getD segment 0

/-- XOR a value into one digest of a list. -/
def xorAt (l : List Word32) (i : Nat) (d : Word32) : List Word32 := l.modify i fun x => x ^^^ d

/-- XOR a record's contributions through the digests of a segment (01, R21); XORing in and out are one operation, and a
profile that does not accept the record's kind has a contribution of 0. -/
def Store.xorRecord (s : Store) (segment : Nat) (r : Record) : Store :=
  { s with fullDigests := xorAt s.fullDigests segment (r.digest .full)
           compactDigests := xorAt s.compactDigests segment (r.digest .compact) }

/-- The segment of a row (01, R11). -/
def segmentOf (row : Nat) : Nat := row / Config.segmentRows

/-! ### The admitted changes on the store (02, R29 to R31) -/

/-- Write the content of a row. -/
def Store.writeRow (s : Store) (row : Nat) (r : Record) : Store := { s with rows := Memory.write s.rows row r }

/-- Free the content of a row. -/
def Store.freeRow (s : Store) (row : Nat) : Store := { s with rows := Memory.free s.rows row }

/-- INSERT of a record into the row on top of the stack (02, R29). -/
def Store.insert (s : Store) (row : Nat) (r : Record) : Store :=
  ((s.popRow.writeRow row r).placeEntry { key := r.key, row }).xorRecord (segmentOf row) r

/-- UPDATE of the record in a row (02, R30). -/
def Store.update (s : Store) (row : Nat) (old new : Record) : Store :=
  ((s.writeRow row new).xorRecord (segmentOf row) old).xorRecord (segmentOf row) new

/-- RETIRE of a key whose record stands in a row (02, R31). -/
def Store.retire (s : Store) (k : Key) (row : Nat) (old : Record) : Store :=
  (((s.removeEntry k).xorRecord (segmentOf row) old).freeRow row).pushRow row

/-! ### STORE_INIT (01, R12 and R13) and resets (01, R23) -/

/-- The allowed size a requested size is rounded up to (01, R12). -/
def roundSize (requested : Nat) : Nat :=
  if requested ≤ 65536 then 65536
  else if requested ≤ 131072 then 131072
  else if requested ≤ 262144 then 262144
  else 524288

/-- The store as initialisation begins (01, R12): it holds nothing yet. -/
def Store.begin (s : Store) (size : Nat) : Store :=
  { s with phase := .initializing, size, rows := [], freed := [], fresh := size, ways := [], overflow := []
           fullDigests := [], compactDigests := [] }

/-- The store at the completion of initialisation (01, R13): every row free, row 0 on top of the stack, the index empty,
every digest 0. -/
def Store.complete (s : Store) : Store :=
  { s with phase := .initialized, rows := [], freed := [], fresh := 0, ways := [], overflow := []
           fullDigests := List.replicate s.segments 0, compactDigests := List.replicate s.segments 0 }

/-- The store after SOFT_RESET (01, R23): kept exactly when INITIALIZED, else as after power-on. -/
def Store.softReset (s : Store) : Store := if s.phase = .initialized then s else Store.reset

end Sys2Proof.Machine
end

