-- ==== Sys2Proof/Machine/Flags.lean ====
section
/-! DEFINITION. Flags: notice marks (08, R183), the lag alarm (05, section 5.2), the overrun flag and the interrupt
(08, R176 and R182). -/

namespace Sys2Proof.Machine

/-! ### Notice marks -/

/-- The lane's notice is marked pending (03, R49). -/
def Lane.markNotice (l : Lane) : Lane := { l with mark := true }

/-- The job's notice is marked pending (06, R123). -/
def Job.markNotice (j : Job) : Job := { j with mark := true }

/-! ### Depth, watermark and lag alarm -/

/-- The depth of an apply queue (05, R97): the outstanding burst is not counted. -/
def Live.depth (v : Live) : Nat := v.queue.length

/-- The test at an enqueue (05, R103): a clear alarm is raised, and the notice marked, when the depth is above the
threshold. -/
def Lane.testRaise (set : Settings) (l : Lane) : Lane :=
  if l.live.alarm = false ∧ l.live.depth > set.threshold then
    { l with live := { l.live with alarm := true }, mark := true }
  else l

/-- The test at a dequeue (05, R104): in AUTO mode a raised alarm is cleared, and the notice marked, when the depth is at or
below half the threshold, rounded down. -/
def Lane.testClear (set : Settings) (l : Lane) : Lane :=
  if set.mode = .auto ∧ l.live.alarm = true ∧ l.live.depth ≤ set.threshold / 2 then
    { l with live := { l.live with alarm := false }, mark := true }
  else l

/-- One enqueue event (05, R99): the entry at the tail, the watermark raised to the new depth, the alarm tested. The fill of
an idle transmitter is an event of its own (the command TRANSMITTER_FILL). -/
def Lane.enqueue (set : Settings) (l : Lane) (e : ApplyEntry) : Lane :=
  Lane.testRaise set
    { l with live := { l.live with
        queue := l.live.queue ++ [e]
        watermark := max l.live.watermark (l.live.depth + 1) } }

/-! ### Placing messages -/

/-- The part is held in reset (08, R188). -/
def State.inReset (s : State) : Bool := s.powerOnReset || s.pinAsserted

/-- Response entries reserved for a deferred STORE_INIT response: 0 or 1 (08, R180). -/
def State.reserved (s : State) : Nat := if s.storeInitTag.isSome then 1 else 0

/-- Free entries of the response queue (08, R177). -/
def State.freeEntries (s : State) : Nat := Config.responseCapacity - s.responses.length - s.reserved

/-- Place a message at the tail of the response queue: it reports the overrun flag and clears it (08, R176), and a placing
onto an empty queue raises the interrupt (08, R182). -/
def State.place (s : State) (m : OutMessage) : State :=
  { s with responses := s.responses ++ [{ m with overrun := s.overrun }]
           overrun := false
           interrupts := if s.responses = [] then s.interrupts + 1 else s.interrupts }

/-- The response to a request (08, R178): its tag and kind, a status and a body. -/
def responseTo (request : List Byte) (status : Status) (body : Payload) : OutMessage :=
  { tag := tagOf request, kind := .response, requestKind := kindOf request, status, overrun := false, body }

/-- Place the response to a request. -/
def State.respond (s : State) (request : List Byte) (status : Status) (body : Payload) : State :=
  s.place (responseTo request status body)

/-- Place a refusal: the status and a body of zeros (10, R200). -/
def State.refuse (s : State) (request : List Byte) (status : Status) : State := s.respond request status .none

end Sys2Proof.Machine
end

