-- ==== Sys2Proof/Machine/Ops.lean ====
section
/-! DEFINITION. The named operations the commands share: access to lanes and jobs, the transmitter (04), lane transitions
(03), training (03), the identification master (03), live lanes (05) and snapshots (10, R201). -/

namespace Sys2Proof.Machine

/-! ### Access to lanes and jobs -/

/-- Apply a function to every element of a vector. -/
def mapVector {α : Type} {n : Nat} (f : α → α) (v : Vector α n) : Vector α n :=
  ⟨⟨v.toList.map f⟩, by simp⟩

/-- The sixteen slots in order. -/
def allSlots : List Slot := [0, 1, 2, 3, 4, 5, 6, 7, 8, 9, 10, 11, 12, 13, 14, 15]

/-- The four job numbers in order. -/
def allJobs : List JobNo := [0, 1, 2, 3]

/-- One lane. -/
def State.lane (s : State) (i : Slot) : Lane := s.lanes[i]

/-- Replace one lane. -/
def State.setLane (s : State) (i : Slot) (l : Lane) : State := { s with lanes := s.lanes.set i l }

/-- Change every lane. -/
def State.mapLanes (s : State) (f : Lane → Lane) : State := { s with lanes := mapVector f s.lanes }

/-- One entry of the job table. -/
def State.job (s : State) (j : JobNo) : Option Job := s.jobs[j]

/-- Replace one entry of the job table. -/
def State.setJob (s : State) (j : JobNo) (e : Option Job) : State := { s with jobs := s.jobs.set j e }

/-- Change every job. -/
def State.mapJobs (s : State) (f : Job → Job) : State := { s with jobs := mapVector (Option.map f) s.jobs }

/-- A running timer's time has run out, so that its expiry is due (log 2). -/
def Timer.ranOut (t : Timer) : Bool := decide (t = some 0)

/-- A working state, not a terminal outcome (06, R118). -/
def JobState.working : JobState → Bool
  | .wipe => true
  | .sweep => true
  | .drain => true
  | .freeze => true
  | .verify => true
  | .completed => false
  | .failed _ => false
  | .aborted => false

/-- The job state holds a freeze: FREEZE or VERIFY (07, R160). -/
def JobState.frozen : JobState → Bool
  | .freeze => true
  | .verify => true
  | _ => false

/-- The entry holds a non-terminal job that targets the slot. -/
def targets (i : Slot) : Option Job → Bool
  | some job => job.state.working && job.slot == i
  | none => false

/-- The entry holds a terminal job that targets the slot. -/
def targeted (i : Slot) : Option Job → Bool
  | some job => !job.state.working && job.slot == i
  | none => false

/-- The non-terminal job that targets a slot (06, R118). -/
def State.jobOn (s : State) (i : Slot) : Option JobNo := allJobs.find? fun j => targets i (s.job j)

/-! ### The transmitter (04, section 4.4) -/

/-- The transmitter takes a burst (04, R82): next sequence number, check computed, first transmission begins. -/
def Transmitter.take (t : Transmitter) (frames : List Frame) (client : Client) (snapshot : Option Word32) :
    Transmitter :=
  { phase := .sending
    outstanding := some
      { seq := t.nextSeq, frames, bytes := layoutBurst t.nextSeq frames, client, resends := 0, snapshot }
    ackTimer := none
    nextSeq := t.nextSeq + 1 }

/-- The outstanding burst is given up, retired or dropped: none outstanding, the timer stopped, the phase IDLE; its number
stays consumed (04, R84, R86, R89). -/
def Transmitter.release (t : Transmitter) : Transmitter :=
  { t with phase := .idle, outstanding := none, ackTimer := none }

/-- The burst's failure count allows another transmission (04, R86). -/
def Burst.mayResend (b : Burst) : Bool := decide (b.resends < Config.maxResends)

/-- A new transmission of the same burst begins (04, R86). -/
def Transmitter.resend (t : Transmitter) (b : Burst) : Transmitter :=
  { t with phase := .sending, outstanding := some { b with resends := b.resends + 1 }, ackTimer := none }

/-- A transmission has left the part outside TRAINING: the acknowledgement is awaited (04, R83). -/
def Transmitter.await (t : Transmitter) : Transmitter :=
  { t with phase := .awaiting, ackTimer := some Config.ackTimeout }

/-! ### Lane transitions (03) -/

/-- The live state is torn down (05, R115): watermark, mismatch count and next audit segment keep their values. -/
def Live.teardown (v : Live) : Live :=
  { v with queue := [], alarm := false, auditTimer := none, debt := 0, repairs := [], repairOffset := 0 }

/-- An audit timer started for one whole interval; not started when the interval is 0 (05, R106). -/
def auditTimerFor (interval : Nat) : Timer := if interval = 0 then none else some (interval * Config.auditUnit)

/-- The live state at entry to LIVE (05, R114). -/
def Live.start (interval : Nat) : Live :=
  { queue := [], watermark := 0, alarm := false, auditTimer := auditTimerFor interval, nextAudit := 0, debt := 0
    mismatches := 0, repairs := [], repairOffset := 0 }

/-- What the lane has in progress is abandoned as it leaves its state (03, R52, R57, R58, R70; 04, R89 and R94; 05, R115).
The identification and the job are given up by the rules of their own blocks. -/
def Lane.abandon (l : Lane) : Lane :=
  match l.state with
  | .training => { l with tx := l.tx.release, step := none, alignTimer := none, replyTimer := none }
  | .loading => { l with tx := l.tx.release }
  | .live => { l with tx := l.tx.release, live := l.live.teardown }
  | .empty => l
  | .identifying => l
  | .ready => l
  | .extracting => l
  | .faulted => l

/-- The lane enters a state from another: its notice is marked (03, R49). -/
def Lane.goto (l : Lane) (state : LaneState) : Lane := { l with state, mark := true }

/-- A lane enters FAULTED with a cause (03, R56). -/
def Lane.fault (l : Lane) (cause : LaneCause) : Lane := { l.abandon.goto .faulted with cause := some cause }

/-- A lane enters EXTRACTING (03, R52): the board facts and the training attempt are kept. -/
def Lane.extract (l : Lane) : Lane := { l.abandon.goto .extracting with cause := some .extraction }

/-- A lane enters EMPTY with a cause (03, R53 and R57). -/
def Lane.vacate (l : Lane) (cause : Option LaneCause) : Lane :=
  { l.abandon.goto .empty with cause, facts := none, attempt := 0, step := none }

/-- A lane enters IDENTIFYING (03, R51); the slot joins the FIFO in `State.identify`. -/
def Lane.identify (l : Lane) : Lane :=
  { l.abandon.goto .identifying with cause := none, facts := none, attempt := 0, step := none }

/-- The profile in the board facts accepts the kind (05, R98). A lane without board facts, which is never LIVE, accepts
nothing (log 19). -/
def Lane.accepts (l : Lane) (k : Kind) : Bool :=
  match l.facts with
  | some f => f.profile.accepts k
  | none => false

/-- The lane's profile; a lane without board facts never needs one (log 19). -/
def Lane.profile (l : Lane) : Profile :=
  match l.facts with
  | some f => f.profile
  | none => .full

/-! ### Training (03, section 3.5) -/

/-- An ALIGN burst of eight frames (04, R78). -/
def alignFrames : List Frame := List.replicate Config.burstFrames .align

/-- The training step hands over an ALIGN burst if the transmitter is IDLE (04, R93). -/
def Lane.sendAlign (l : Lane) : Lane :=
  if l.tx.phase = .idle then { l with tx := l.tx.take alignFrames .training none } else l

/-- The training step hands over a TEST burst if the transmitter is IDLE, and counts it (03, R69 and R71). -/
def Lane.sendTest (l : Lane) : Lane :=
  if l.tx.phase = .idle then
    { l with tx := l.tx.take [.test] .training none, testsTaken := l.testsTaken + 1 }
  else l

/-- An ALIGN step begins (03, R68): its 10 ms timer starts and its first burst is handed over when the transmitter is
IDLE. -/
def Lane.beginAlign (l : Lane) : Lane :=
  Lane.sendAlign
    { l with step := some .align, alignTimer := some Config.trainTimeout, replyTimer := none, testsTaken := 0 }

/-- The PATTERN step begins (03, R69 and R71). -/
def Lane.beginPattern (l : Lane) : Lane :=
  Lane.sendTest { l with step := some .pattern, alignTimer := none, replyTimer := none, testsTaken := 0 }

/-- The lane enters TRAINING with the board facts of a valid descriptor (03, R64 and R67). -/
def Lane.train (l : Lane) (facts : BoardFacts) : Lane :=
  Lane.beginAlign { l.goto .training with facts := some facts, attempt := 1 }

/-- A training attempt has failed (03, R67): the next begins with its ALIGN step, or after the third the lane faults. -/
def Lane.failAttempt (l : Lane) : Lane :=
  if l.attempt < Config.maxAttempts then Lane.beginAlign { l with attempt := l.attempt + 1 }
  else l.fault .trainFail

/-- A training attempt has passed (03, R67): the lane enters READY. -/
def Lane.passTraining (l : Lane) : Lane := l.abandon.goto .ready

/-- A training burst has been sent and is released (03, R68, R69, R71; 04, R83): the step's next burst follows, or after the
64th TEST burst the reply timer starts. -/
def Lane.trainingSent (l : Lane) : Lane :=
  let l := { l with tx := l.tx.release }
  match l.step with
  | some .align => l.sendAlign
  | some .pattern =>
    if l.testsTaken < Config.testBursts then l.sendTest else { l with replyTimer := some Config.trainTimeout }
  | none => l

/-! ### The identification master (03, section 3.4) -/

/-- The slot whose attempt is in progress: the head of the FIFO (03, R60 and R61). -/
def IdMaster.attempting (m : IdMaster) : Option Slot :=
  match m.phase with
  | .attempt => m.fifo.head?
  | .idle => none
  | .waiting _ => none

/-- The master begins with the head of a FIFO: both counts 0 and an attempt begun at once, or nothing to do (03, R60). -/
def IdMaster.serve (m : IdMaster) (fifo : List Slot) : IdMaster :=
  { m with fifo, phase := if fifo = [] then .idle else .attempt, nacks := 0, losses := 0 }

/-- A slot is appended (03, R60): onto an empty FIFO its first attempt begins at once. -/
def IdMaster.append (m : IdMaster) (i : Slot) : IdMaster :=
  if m.fifo = [] then m.serve [i] else { m with fifo := m.fifo ++ [i] }

/-- A slot leaves the FIFO (03, R60 and R66): a head takes its attempt or wait with it, and the next slot is served. -/
def IdMaster.remove (m : IdMaster) (i : Slot) : IdMaster :=
  match m.fifo with
  | [] => m
  | head :: rest => if head = i then m.serve rest else { m with fifo := head :: rest.erase i }

/-- A slot leaves the FIFO by a seating event (03, R66). An attempt of its own in progress is abandoned; the attempt's end may
come in the same microsecond (log 26). -/
def IdMaster.abandon (m : IdMaster) (i : Slot) : IdMaster :=
  { m.remove i with abandoned := m.abandoned || decide (m.attempting = some i) }

/-- An attempt has ended without an outcome: the master waits 1 ms (03, R62 and R63). -/
def IdMaster.wait (m : IdMaster) : IdMaster := { m with phase := .waiting Config.idWait }

/-- A lane enters IDENTIFYING and its slot joins the FIFO (03, R51). -/
def State.identify (s : State) (i : Slot) : State :=
  { s.setLane i (s.lane i).identify with master := s.master.append i }

/-! ### Live lanes (05) -/

/-- The repair entry for a row (05, R112). -/
def repairEntry (store : Store) (p : Profile) (row : Nat) : ApplyEntry :=
  match store.row row with
  | some r => if p.accepts r.key.kind then .write row (r.encode p) else .clear row
  | none => .clear row

/-- The repair cursor moves on after placing an entry (05, R112 and R113): to the next row, or past the last row the segment
leaves the list, and an emptied list marks the notice. -/
def Lane.advanceRepair (l : Lane) : Lane :=
  if l.live.repairOffset + 1 < Config.segmentRows then
    { l with live := { l.live with repairOffset := l.live.repairOffset + 1 } }
  else
    { l with live := { l.live with repairs := l.live.repairs.tail, repairOffset := 0 }
             mark := l.mark || l.live.repairs.tail.isEmpty }

/-- Up to `n` repair entries (05, R111): one after another while the list is not empty and the depth is below 3,072. -/
def Lane.repair (store : Store) (set : Settings) : Nat → Lane → Lane
  | 0, l => l
  | n + 1, l =>
    match l.live.repairs with
    | [] => l
    | segment :: _ =>
      if l.live.depth < Config.repairRoom then
        let row := Config.segmentRows * segment + l.live.repairOffset
        Lane.repair store set n (l.enqueue set (repairEntry store l.profile row)).advanceRepair
      else l

/-- One repair step: at most eight entries (05, R111). -/
def Lane.repairStep (store : Store) (set : Settings) (l : Lane) : Lane :=
  Lane.repair store set Config.repairStepEntries l

/-- A mismatch of an audit (05, R109 and R110): counted, the notice marked, and the segment appended with a repair step
unless the list already holds it. -/
def Lane.mismatch (store : Store) (set : Settings) (l : Lane) (segment : Nat) : Lane :=
  let counted := { l with live := { l.live with mismatches := min Config.saturation (l.live.mismatches + 1) }, mark := true }
  if segment ∈ l.live.repairs then counted
  else Lane.repairStep store set { counted with live := { counted.live with repairs := l.live.repairs ++ [segment] } }

/-- The audit comparison at the retirement of a burst that ends with AUDIT (05, R109). -/
def Lane.compareAudit (store : Store) (set : Settings) (l : Lane) (segment : Nat) (board master : Word32) : Lane :=
  if board = master then l else l.mismatch store set segment

/-- The entries a fill takes from the head of the queue, and the rest (04, R90): at most `n`, ending after an AUDIT. -/
def takeEntries : Nat → List ApplyEntry → List ApplyEntry × List ApplyEntry
  | 0, q => ([], q)
  | _, [] => ([], [])
  | _ + 1, .audit segment digest :: q => ([.audit segment digest], q)
  | n + 1, e :: q => let (taken, rest) := takeEntries n q; (e :: taken, rest)

/-- The master digest that an AUDIT entry carries with its burst (04, R81). -/
def snapshotOf (entries : List ApplyEntry) : Option Word32 :=
  match entries.getLast? with
  | some (.audit _ digest) => some digest
  | _ => none

/-- One AUDIT entry for the next audit segment, with its master digest, and the segment number advanced (05, R107). -/
def Lane.placeAudit (store : Store) (set : Settings) (l : Lane) : Lane :=
  let segment := l.live.nextAudit
  let l := l.enqueue set (.audit segment (store.digest l.profile segment))
  { l with live := { l.live with nextAudit := (segment + 1) % store.segments } }

/-- The audit scheduler's action at an expiry (05, R107). -/
def Lane.auditExpiry (store : Store) (set : Settings) (l : Lane) : Lane :=
  if l.live.depth > Config.auditDepth ∧ l.live.debt < Config.maxDebt then
    { l with live := { l.live with debt := l.live.debt + 1 } }
  else if l.live.depth < Config.applyCapacity then
    let l := l.placeAudit store set
    if 0 < l.live.debt ∧ l.live.depth ≤ Config.auditDepth ∧ l.live.depth < Config.applyCapacity then
      let l := l.placeAudit store set
      { l with live := { l.live with debt := l.live.debt - 1 } }
    else l
  else l

/-! ### Snapshots -/

/-- The position of a slot in the FIFO, 1 at the head, 0 when it is not in it (10, R201). -/
def fifoPosition (fifo : List Slot) (i : Slot) : Nat := if i ∈ fifo then fifo.idxOf i + 1 else 0

/-- The repair cursor: absent, or the head segment and the offset (05, R110). -/
def Live.cursor (v : Live) : Option (Nat × Nat) := v.repairs.head?.map fun segment => (segment, v.repairOffset)

/-- What a snapshot tells of an outstanding burst (04, R95). -/
def Burst.snapshotFields (b : Burst) : BurstSnapshot :=
  { seq := b.seq, frameCount := b.frames.length, resends := b.resends, client := b.client }

/-- The snapshot of a lane (03 R59, 04 R95, 05 R117). The attempt counts are those of the slot's own identification, so
they are 0 unless the slot is at the head of the FIFO. -/
def State.laneSnapshot (s : State) (i : Slot) : LaneSnapshot :=
  let l := s.lane i
  let served := fifoPosition s.master.fifo i = 1
  { slot := i, state := l.state, cause := l.cause, present := l.present, lever := l.lever, facts := l.facts
    attempt := l.attempt, step := l.step
    fifoPosition := fifoPosition s.master.fifo i
    nacks := if served then s.master.nacks else 0
    losses := if served then s.master.losses else 0
    job := if l.state = .loading then s.jobOn i else none
    phase := l.tx.phase, nextSeq := l.tx.nextSeq, outstanding := l.tx.outstanding.map Burst.snapshotFields
    depth := l.live.depth, watermark := l.live.watermark, alarm := l.live.alarm, debt := l.live.debt
    nextAudit := l.live.nextAudit, mismatches := l.live.mismatches, repairLength := l.live.repairs.length
    cursor := l.live.cursor }

/-- The quotient rounded up. -/
def ceilDiv (a b : Nat) : Nat := (a + b - 1) / b

/-- The predicted freeze time T in microseconds, from the dirty count N and the send estimate Es (07, R154). -/
def predictedTime (n es : Nat) : Nat :=
  if n = 0 then 0
  else if es = 0 then Config.unboundedTime
  else min Config.unboundedTime (ceilDiv (n * 16 * 1024) es)

/-- The snapshot of a job (06 R146, 07 R155 and R173). -/
def Job.snapshot (number : JobNo) (j : Job) : JobSnapshot :=
  { number, slot := j.slot, profile := j.profile, state := j.state, progress := j.progress
    sweepCursor := j.sweepCursor, drainCursor := j.drainCursor, dirtyCount := j.dirty.length, pass := j.pass
    previous := j.previous, stall := j.stall, freezeAttempts := j.freezeAttempts, roundsFailed := j.roundsFailed
    freezeTimer := j.freezeTimer, policy := j.policy, arrivals := j.arrivals, sends := j.sends, sampled := j.sampled
    ea := j.ea, es := j.es, fastest := j.fastest, slowest := j.slowest
    predicted := predictedTime j.dirty.length j.es, lastEvaluation := j.lastEvaluation
    verifySegment := j.verifySegment, answered := j.answered, mismatchedLength := j.mismatched.length }

/-! ### Requests (08, section 8.3) -/

/-- The handler takes the request at the head of the queue, when it is of the kind a command names (08, R177): the part is
not in reset, the response queue has a free entry, and the head's kind code satisfies `isKind`. The request leaves the
queue and its owner decides it. Otherwise nothing is taken and nothing changes (log 3, log 4). -/
def State.takeRequest (s : State) (isKind : Byte → Bool) (decideRequest : State → List Byte → State) : State :=
  match s.requests with
  | [] => s
  | m :: rest =>
    if s.inReset = false ∧ 0 < s.freeEntries ∧ isKind (kindOf m) = true then
      decideRequest { s with requests := rest } m
    else s

/-- A lane request's slot (08, R179): byte 8, refused above 15. -/
def requestSlot (m : List Byte) : Option Slot := slotOf (byteAt m 8)

/-- A command of a part that is not in reset. In reset the part takes nothing and sends nothing (08, R188; 09, R196). -/
def State.unlessReset (s : State) (f : State → State) : State := if s.inReset then s else f s

end Sys2Proof.Machine
end

