-- ==== Sys2Proof/Machine/CopyOps.lean ====
section
/-! DEFINITION. The operations the copy engine and the convergence monitor share: the dirty set, the ends of a job, pass-end
evaluation, freeze, verify and cut-over, and the store-read arbiter (06, 07). -/

namespace Sys2Proof.Machine

/-! ### The dirty set (06, section 6.6) -/

/-- Add a row to a dirty set held in ascending order; a row already in it is left where it is (06, R132). -/
def dirtyInsert (row : Nat) : List Nat → List Nat
  | [] => [row]
  | r :: rest => if row < r then row :: r :: rest else if row = r then r :: rest else r :: dirtyInsert row rest

/-- Add every row of a segment (07, R169). -/
def dirtySegment (segment : Nat) (dirty : List Nat) : List Nat :=
  (List.range' (Config.segmentRows * segment) Config.segmentRows).foldr dirtyInsert dirty

/-- The first row of the dirty set at or above the drain cursor (06, R137). -/
def Job.nextDirty (j : Job) : Option Nat := j.dirty.find? fun row => decide (j.drainCursor ≤ row)

/-- A count that saturates at 65,535 (07, R150 and R151). -/
def saturate (n : Nat) : Nat := min Config.saturation n

/-- An offered row is added: if the set does not hold it, it is an arrival (06, R133 and R135; 07, R150). -/
def Job.addArrival (j : Job) (row : Nat) : Job :=
  if row ∈ j.dirty then j
  else { j with dirty := dirtyInsert row j.dirty, arrivals := saturate (j.arrivals + 1) }

/-- An offer of a changed row of a kind (02, R37; 06, R133). -/
def Job.offer (kind : Kind) (row : Nat) (j : Job) : Job :=
  if j.profile.accepts kind then
    match j.state with
    | .sweep => if row < j.sweepCursor then j.addArrival row else j
    | .drain => j.addArrival row
    | .wipe => j
    | .freeze => j
    | .verify => j
    | .completed => j
    | .failed _ => j
    | .aborted => j
  else j

/-! ### Grants and the arbiter (06, section 6.3) -/

/-- A grant of the job is in progress. -/
def State.granted (s : State) (j : JobNo) : Bool :=
  match s.grant with
  | some g => g.job == j
  | none => false

/-- The job has work in its state (06, R125). In WIPE a job whose transmitter is IDLE has not had its WIPE burst taken, since
every end of that burst takes the job out of WIPE (06, R128; log 23). -/
def Job.hasWork (store : Store) (j : Job) : Bool :=
  match j.state with
  | .wipe => true
  | .sweep => decide (j.sweepCursor < store.size)
  | .drain => j.nextDirty.isSome
  | .freeze => j.nextDirty.isSome
  | .verify => decide (j.verifySegment < store.segments)
  | .completed => false
  | .failed _ => false
  | .aborted => false

/-- The job is eligible for a grant (06, R125). -/
def State.eligible (s : State) (j : JobNo) : Bool :=
  match s.job j with
  | some job => job.hasWork s.store && !s.granted j && decide ((s.lane job.slot).tx.phase = .idle)
  | none => false

/-- The job is of the arbiter's freeze class (06, R126). -/
def State.freezeClass (s : State) (j : JobNo) : Bool :=
  match s.job j with
  | some job => job.state.frozen
  | none => false

/-- The first job number from a pointer upward, wrapping from 3 to 0, that passes a test (06, R126). -/
def searchJobs (pointer : JobNo) (test : JobNo → Bool) : Option JobNo :=
  [pointer, pointer + 1, pointer + 2, pointer + 3].find? test

/-- A grant begins (06, R124): in WIPE and VERIFY its burst is built at once, and the verify segment advances (07, R166). -/
def State.beginGrant (s : State) (j : JobNo) : State :=
  match s.job j with
  | none => s
  | some job =>
    match job.state with
    | .wipe => { s with grant := some { job := j, frames := [.wipe], examined := 0, closed := false } }
    | .verify =>
      { s.setJob j (some { job with verifySegment := job.verifySegment + 1 }) with
        grant := some { job := j, frames := [.verify job.verifySegment], examined := 0, closed := false } }
    | _ => { s with grant := some { job := j, frames := [], examined := 0, closed := false } }

/-- The arbiter's choice (06, R126): while no grant is in progress, an eligible job of the freeze class from its pointer, or
else an eligible job from the load class's pointer; the pointer of the chosen class moves past the job. -/
def State.arbitrate (s : State) : State :=
  if s.grant.isSome then s
  else
    match searchJobs s.freezePointer fun j => s.eligible j && s.freezeClass j with
    | some j => { s with freezePointer := j + 1 }.beginGrant j
    | none =>
      match searchJobs s.loadPointer fun j => s.eligible j && !s.freezeClass j with
      | some j => { s with loadPointer := j + 1 }.beginGrant j
      | none => s

/-- A grant of the job in progress ends at once and builds nothing (06, R127). -/
def State.dropGrant (s : State) (j : JobNo) : State := if s.granted j then { s with grant := none } else s

/-- A grant of the job in progress takes no further row (06, R127). -/
def State.closeGrant (s : State) (j : JobNo) : State :=
  match s.grant with
  | some g => if g.job = j then { s with grant := some { g with closed := true } } else s
  | none => s

/-! ### Ends of a job (06, section 6.9) -/

/-- The job entry at a terminal outcome (06, R142): outcome recorded, dirty set emptied, timers stopped, notice marked. -/
def Job.finish (j : Job) (outcome : JobState) : Job :=
  { j with state := outcome, dirty := [], freezeTimer := none, sampleTimer := none, mark := true }

/-- The lane enters LIVE at a cut-over (05, R114; 07, R171). -/
def Lane.enterLive (l : Lane) (interval : Nat) : Lane := { l.goto .live with live := Live.start interval }

/-- The lane's part in the end of its job, while it is LOADING: to LIVE at COMPLETED, else to READY with the outstanding
burst abandoned (03, R55). -/
def Lane.jobEnded (l : Lane) (outcome : JobState) (interval : Nat) : Lane :=
  if l.state = .loading then
    if outcome = .completed then l.enterLive interval else l.abandon.goto .ready
  else l

/-- A job becomes terminal (06, R142). -/
def State.endJob (s : State) (j : JobNo) (outcome : JobState) : State :=
  match s.job j with
  | none => s
  | some job =>
    ((s.setJob j (some (job.finish outcome))).dropGrant j).setLane job.slot
      ((s.lane job.slot).jobEnded outcome s.settings.interval)

/-- The job that targets a slot, if there is one, fails (06, R140 and R141); the arbiter then chooses again (06, R127). -/
def State.failJobOn (s : State) (i : Slot) (cause : JobCause) : State :=
  match s.jobOn i with
  | some j => (s.endJob j (.failed cause)).arbitrate
  | none => s

/-- A burst's fourth failure, reported to the lane controller (03, R56; 06, R141): the lane enters FAULTED with cause
LINK_ERRORS, and the job of a LOADING lane fails with cause LANE_FAULT. -/
def State.linkFailure (s : State) (i : Slot) : State :=
  let l := s.lane i
  match l.state with
  | .loading => (s.setLane i (l.fault .linkErrors)).failJobOn i .laneFault
  | .live => s.setLane i (l.fault .linkErrors)
  | _ => s.setLane i { l with tx := l.tx.release }

/-- The outstanding burst has failed once (04, R86): it is sent again unchanged, or on the fourth failure dropped with a link
failure. -/
def State.failBurst (s : State) (i : Slot) (b : Burst) : State :=
  let l := s.lane i
  if b.mayResend then s.setLane i { l with tx := l.tx.resend b } else s.linkFailure i

/-! ### Freeze, verify and cut-over (07) -/

/-- The verify fields at the start of a round (07, R166). -/
def Job.startRound (j : Job) : Job := { j with verifySegment := 0, answered := 0, mismatched := [] }

/-- The freeze drain is complete (07, R162): VERIFY with verify ON, cut-over with verify OFF. -/
def State.freezeDrained (s : State) (j : JobNo) (job : Job) : State :=
  if job.policy.verify then s.setJob j (some { job.startRound with state := .verify, mark := true })
  else s.endJob j .completed

/-- The entry into FREEZE on the job's own fields (07, R160): the timer starts at four times the budget if it is stopped. -/
def Job.enterFreeze (j : Job) : Job :=
  { j with state := .freeze, drainCursor := 0
           freezeTimer := some (j.freezeTimer.getD (4 * j.policy.budget)), mark := true }

/-- The entry into FREEZE at a moment with no grant and no burst of the job (07, R160 and R162): an empty dirty set completes
the freeze drain in the same event. -/
def State.freeze (s : State) (j : JobNo) (job : Job) : State :=
  let s := s.setJob j (some job.enterFreeze)
  if job.dirty = [] then s.freezeDrained j job.enterFreeze else s

/-- The stall count and the previous dirty count at the end of a drain pass that did not freeze on prediction (07, R157);
after the sweep they stay. -/
def Job.countStall (j : Job) : Job :=
  match j.state with
  | .drain =>
    { j with
      stall :=
        match j.previous with
        | some p => if p ≤ j.dirty.length then min j.policy.stallLimit (j.stall + 1) else 0
        | none => 0
      previous := some j.dirty.length }
  | _ => j

/-- The start of a drain pass on the job's own fields (06, R136). -/
def Job.startPass (j : Job) (pass : Nat) : Job := { j with state := .drain, drainCursor := 0, pass, mark := true }

/-- The last evaluation recorded (07, R148). -/
def Job.record (j : Job) (outcome : EvalOutcome) (n t : Nat) : Job :=
  { j with lastEvaluation := some { outcome, dirtyCount := n, time := t } }

/-- Pass-end evaluation (07, R156 to R159). -/
def State.evaluate (s : State) (j : JobNo) (job : Job) : State :=
  let n := job.dirty.length
  let t := predictedTime n job.es
  if t ≤ job.policy.budget then s.freeze j (job.record .freezePredicted n t)
  else
    let job := job.countStall
    if job.stall = job.policy.stallLimit ∨ job.pass = job.policy.passLimit then
      match job.policy.stallAction with
      | .force => s.freeze j (job.record .freezeForced n t)
      | .abandon => (s.setJob j (some (job.record .abandoned n t))).endJob j (.failed .notConverging)
    else s.setJob j (some ((job.record .nextPass n t).startPass (job.pass + 1)))

/-- The job has a burst outstanding at its lane's transmitter. -/
def State.burstOut (s : State) (job : Job) : Bool := (s.lane job.slot).tx.outstanding.isSome

/-- The end of the sweep (06, R130), of a drain pass (06, R138) or of the freeze drain (07, R162), at the first moment at
which the job's work in its state is done and it has neither a grant in progress nor a burst outstanding (log 14). -/
def State.endOfWork (s : State) (j : JobNo) : State :=
  match s.job j with
  | none => s
  | some job =>
    if s.granted j || s.burstOut job then s
    else
      match job.state with
      | .sweep => if s.store.size ≤ job.sweepCursor then s.evaluate j job else s
      | .drain => if job.nextDirty = none then s.evaluate j job else s
      | .freeze => if job.dirty = [] then s.freezeDrained j job else s
      | .wipe => s
      | .verify => s
      | .completed => s
      | .failed _ => s
      | .aborted => s

/-- The end of a verify round (07, R168 and R169). -/
def State.endRound (s : State) (j : JobNo) (job : Job) : State :=
  if job.mismatched = [] then (s.setJob j (some job)).endJob j .completed
  else
    let job := { job with roundsFailed := job.roundsFailed + 1 }
    if job.roundsFailed < Config.maxRounds then
      s.setJob j (some
        { (job.startRound).enterFreeze with dirty := job.mismatched.foldr dirtySegment job.dirty })
    else (s.setJob j (some job)).endJob j (.failed .verifyExhausted)

/-- A VERIFY burst retired in VERIFY (07, R167). -/
def State.verifyAnswer (s : State) (j : JobNo) (job : Job) (segment : Nat) (digest : Word32) : State :=
  let job :=
    { job with
      answered := job.answered + 1
      mismatched := if digest = s.store.digest job.profile segment then job.mismatched
                    else dirtyInsert segment job.mismatched }
  if job.answered = s.store.segments then s.endRound j job else s.setJob j (some job)

/-- The sends of a retired burst are counted (06, R135; 07, R150). -/
def Job.countSends (j : Job) (frames : List Frame) : Job :=
  { j with sends := saturate (j.sends + frames.countP Frame.isSend) }

/-- The WIPE burst is retired (06, R128; 07, R149): SWEEP from row 0, and the first sample period starts. -/
def Job.startSweep (j : Job) : Job :=
  { j with state := .sweep, sweepCursor := 0, progress := 0, sampleTimer := some Config.samplePeriod, mark := true }

/-- A job's burst is retired and reported to it, in whatever state it holds (06, R139). -/
def State.reportRetired (s : State) (j : JobNo) (frames : List Frame) (digest : Option Word32) : State :=
  match s.job j with
  | none => s
  | some before =>
    let job := before.countSends frames
    match job.state with
    | .wipe => s.setJob j (some job.startSweep)
    | .sweep => (s.setJob j (some job)).endOfWork j
    | .drain => (s.setJob j (some job)).endOfWork j
    | .freeze => (s.setJob j (some job)).endOfWork j
    | .verify =>
      match frames.getLast?, digest with
      | some (.verify segment), some d => s.verifyAnswer j job segment d
      | _, _ => s.setJob j (some job)
    | .completed => s
    | .failed _ => s
    | .aborted => s

end Sys2Proof.Machine
end

