-- ==== Sys2Proof/Machine/Changes.lean ====
section
/-! DEFINITION. Table changes and lookups (02), and the store requests (01): INSERT, UPDATE, RETIRE, FIND, READ_ROW,
STORE_INIT, STORE_STATS and the completion of initialisation. -/

namespace Sys2Proof.Machine

/-! ### Admission checks (02, section 2.1) -/

/-- Check 3 (02, R27): some job in FREEZE or VERIFY has a profile that accepts the kind. -/
def State.frozenKind (s : State) (k : Kind) : Bool :=
  allJobs.any fun j =>
    match s.job j with
    | some job => job.state.frozen && job.profile.accepts k
    | none => false

/-- Check 4 (02, R28): some LIVE lane whose profile accepts the kind has a full apply queue. -/
def State.backlogged (s : State) (k : Kind) : Bool :=
  allSlots.any fun i =>
    let l := s.lane i
    decide (l.state = .live) && l.accepts k && decide (Config.applyCapacity ≤ l.live.depth)

/-- Checks 1 to 4 in their order (02, R25 and R26) on what a request carries; the first that fails decides. -/
def State.admissionChecks {α : Type} (s : State) (carried : Option α) (kind : α → Kind) : Except Status α :=
  if s.store.phase ≠ .initialized then .error .notReady
  else
    match carried with
    | none => .error .badRecord
    | some x =>
      if s.frozenKind (kind x) then .error .frozen
      else if s.backlogged (kind x) then .error .backlog
      else .ok x

/-- The decision on an INSERT (02, R29): a refusal, or the record and the row it takes. -/
def State.insertVerdict (s : State) (m : List Byte) : Except Status (Record × Nat) :=
  match s.admissionChecks (requestRecord m) fun r => r.key.kind with
  | .error status => .error status
  | .ok r =>
    if (s.store.lookup r.key).isSome then .error .exists_
    else
      match s.store.topRow with
      | none => .error .storeFull
      | some row => if s.store.canPlace r.key then .ok (r, row) else .error .hashFull

/-- The decision on an UPDATE (02, R30): a refusal, or the row, the record it holds and the record carried. -/
def State.updateVerdict (s : State) (m : List Byte) : Except Status (Nat × Record × Record) :=
  match s.admissionChecks (requestRecord m) fun r => r.key.kind with
  | .error status => .error status
  | .ok r =>
    match s.store.lookup r.key with
    | none => .error .notFound
    | some row =>
      match s.store.row row with
      | none => .error .notFound
      | some old => .ok (row, old, r)

/-- The decision on a RETIRE (02, R31): a refusal, or the canonical key, its row and the record the row holds. -/
def State.retireVerdict (s : State) (m : List Byte) : Except Status (Key × Nat × Record) :=
  match s.admissionChecks (requestKey m) Key.kind with
  | .error status => .error status
  | .ok k =>
    match s.store.lookup k with
    | none => .error .notFound
    | some row =>
      match s.store.row row with
      | none => .error .notFound
      | some old => .ok (k, row, old)

/-! ### The admission event (02, R32 to R37) -/

/-- What an admitted change places on one lane (02, R33): at most one entry, on a LIVE lane whose profile accepts the
kind. -/
def Lane.feed (set : Settings) (k : Kind) (entry : Profile → Option ApplyEntry) (l : Lane) : Lane :=
  if l.state = .live ∧ l.accepts k = true then
    match entry l.profile with
    | some e => l.enqueue set e
    | none => l
  else l

/-- The admission event (02, R32): the new store, the entries of the live lanes, the offers to the jobs, and the arbiter's
choice if an offer has made a job eligible (06, R125 and R126; log 13). -/
def State.applyChange (s : State) (store : Store) (k : Kind) (row : Nat) (entry : Profile → Option ApplyEntry) : State :=
  (({ s with store }.mapLanes (Lane.feed s.settings k entry)).mapJobs (Job.offer k row)).arbitrate

/-- INSERT decided (02, R24 and R29). -/
def State.decideInsert (s : State) (m : List Byte) : State :=
  match s.insertVerdict m with
  | .error status => s.refuse m status
  | .ok (r, row) =>
    (s.applyChange (s.store.insert row r) r.key.kind row fun p => some (.write row (r.encode p))).respond m .ok (.row row)

/-- UPDATE decided (02, R24 and R30): the body is replaced, the key and the row stay. -/
def State.decideUpdate (s : State) (m : List Byte) : State :=
  match s.updateVerdict m with
  | .error status => s.refuse m status
  | .ok (row, old, r) =>
    if old.body = r.body then s.respond m .okUnchanged (.row row)
    else
      let new := { old with body := r.body }
      (s.applyChange (s.store.update row old new) r.key.kind row fun p => updateEntry p row old new).respond m .ok (.row row)

/-- RETIRE decided (02, R24 and R31). -/
def State.decideRetire (s : State) (m : List Byte) : State :=
  match s.retireVerdict m with
  | .error status => s.refuse m status
  | .ok (k, row, old) =>
    (s.applyChange (s.store.retire k row old) k.kind row fun _ => some (.clear row)).respond m .ok (.row row)

/-! ### Lookups (02, section 2.6) -/

/-- FIND decided (02, R41). -/
def State.decideFind (s : State) (m : List Byte) : State :=
  if s.store.phase ≠ .initialized then s.refuse m .notReady
  else
    match requestKey m with
    | none => s.refuse m .badRecord
    | some k =>
      match s.store.lookup k with
      | none => s.refuse m .notFound
      | some row => s.respond m .ok (.rowContent row (s.store.row row))

/-- READ_ROW decided (02, R42). -/
def State.decideReadRow (s : State) (m : List Byte) : State :=
  if s.store.phase ≠ .initialized then s.refuse m .notReady
  else if s.store.size ≤ fieldAt m 8 4 then s.refuse m .badRequest
  else s.respond m .ok (.rowContent (fieldAt m 8 4) (s.store.row (fieldAt m 8 4)))

/-- STORE_STATS decided (02, R43). -/
def State.decideStoreStats (s : State) (m : List Byte) : State :=
  if s.store.phase ≠ .initialized then s.refuse m .notReady
  else
    s.respond m .ok
      (.stats (s.store.size - s.store.freeCount) s.store.freeCount s.store.overflow.length s.store.size)

/-! ### STORE_INIT (01, R12 and R13) -/

/-- STORE_INIT decided (01, R12; 08, R180): accepted only when UNINITIALIZED, with one response entry reserved. -/
def State.decideStoreInit (s : State) (m : List Byte) : State :=
  if s.store.phase = .uninitialized then
    { s with store := s.store.begin (roundSize (fieldAt m 8 4)), storeInitTag := some (tagOf m) }
  else s.refuse m .alreadyInit

/-- The response to the STORE_INIT that began the initialisation (01, R13; 10, R200): request kind 6. -/
def storeInitResponse (tag : Tag) (size : Nat) : OutMessage :=
  { tag, kind := .response, requestKind := 6, status := .ok, overrun := false, body := .storeSize size }

/-- Initialisation completes (01, R13; 08, R180): the store's contents, and the response in the reserved entry. -/
def State.completeInit (s : State) : State :=
  match s.store.phase, s.storeInitTag with
  | .initializing, some tag =>
    { s with store := s.store.complete, storeInitTag := none }.place (storeInitResponse tag s.store.size)
  | _, _ => s

/-! ### Meanings -/

/-- INSERT (02, R29). -/
def execInsert (s : State) : Host.Outcome State Fault Refusal :=
  .next (s.takeRequest (· == 1#8) State.decideInsert)

/-- UPDATE (02, R30). -/
def execUpdate (s : State) : Host.Outcome State Fault Refusal :=
  .next (s.takeRequest (· == 2#8) State.decideUpdate)

/-- RETIRE (02, R31). -/
def execRetire (s : State) : Host.Outcome State Fault Refusal :=
  .next (s.takeRequest (· == 3#8) State.decideRetire)

/-- FIND (02, R41). -/
def execFind (s : State) : Host.Outcome State Fault Refusal :=
  .next (s.takeRequest (· == 4#8) State.decideFind)

/-- READ_ROW (02, R42). -/
def execReadRow (s : State) : Host.Outcome State Fault Refusal :=
  .next (s.takeRequest (· == 5#8) State.decideReadRow)

/-- STORE_INIT (01, R12). -/
def execStoreInit (s : State) : Host.Outcome State Fault Refusal :=
  .next (s.takeRequest (· == 6#8) State.decideStoreInit)

/-- STORE_STATS (02, R43). -/
def execStoreStats (s : State) : Host.Outcome State Fault Refusal :=
  .next (s.takeRequest (· == 7#8) State.decideStoreStats)

/-- STORE_INIT_COMPLETE (01, R13). -/
def execStoreInitComplete (s : State) : Host.Outcome State Fault Refusal :=
  .next (s.unlessReset State.completeInit)

end Sys2Proof.Machine
end

