-- ==== Sys2Proof/Machine/CopyEvents.lean ====
section
/-! DEFINITION. The copy engine's and the convergence monitor's own events (06, 07): SWEEP_EXAMINATION, DRAIN_ROW_TAKE,
GRANT_COMPLETE, FREEZE_TIMER_EXPIRY, SAMPLE_TIMER_EXPIRY. -/

namespace Sys2Proof.Machine

/-- The grant in progress with its job. -/
def State.grantJob (s : State) : Option (Grant × Job) :=
  match s.grant with
  | some g => (s.job g.job).map fun job => (g, job)
  | none => none

/-! ### SWEEP_EXAMINATION (06, R129 and R131) -/

/-- A sweep grant goes on examining (06, R129). -/
def Grant.maySweep (g : Grant) (store : Store) (job : Job) : Bool :=
  decide (job.state = .sweep) && !g.closed && decide (g.frames.length < Config.burstFrames)
    && decide (g.examined < Config.grantExaminations) && decide (job.sweepCursor < store.size)

/-- A job's progress (06, R131). -/
def progressOf (cursor size : Nat) : Nat := cursor * 16 / size

/-- The job after the examination of the row at its sweep cursor (06, R129 and R131). -/
def Job.examined (j : Job) (store : Store) : Job :=
  let progress := progressOf (j.sweepCursor + 1) store.size
  { j with sweepCursor := j.sweepCursor + 1, progress, mark := j.mark || decide (j.progress < progress) }

/-- The frame a row gives to a job's burst when it is in the job's profile (06, R129 and R137). -/
def rowFrame (store : Store) (p : Profile) (row : Nat) : Option Frame :=
  match store.row row with
  | some r => if p.accepts r.key.kind then some (.write row (r.encode p)) else none
  | none => none

/-- One sweep examination (06, R129). -/
def State.examineRow (s : State) : State :=
  match s.grantJob with
  | some (g, job) =>
    if g.maySweep s.store job then
      { s.setJob g.job (some (job.examined s.store)) with
        grant := some { g with examined := g.examined + 1
                               frames := g.frames ++ (rowFrame s.store job.profile job.sweepCursor).toList } }
    else s
  | none => s

/-! ### DRAIN_ROW_TAKE (06, R137) -/

/-- A drain or freeze grant may take a further row, which is the one returned (06, R127 and R137). Whether it may is asked
afresh each time: a row that an offer adds at or above the drain cursor after the grant's last take, and before its
GRANT_COMPLETE, lets the grant take again (DESIGN CHOICE, log 25: R137 does not say which grant takes such a row). -/
def Grant.mayDrain (g : Grant) (job : Job) : Option Nat :=
  if (job.state = .drain ∨ job.state = .freeze) ∧ g.closed = false ∧ g.frames.length < Config.burstFrames then
    job.nextDirty
  else none

/-- One row taken from the dirty set (06, R137): removed, read, framed, and the drain cursor moved past it. -/
def State.takeRow (s : State) : State :=
  match s.grantJob with
  | some (g, job) =>
    match g.mayDrain job with
    | some row =>
      { s.setJob g.job (some { job with dirty := job.dirty.erase row, drainCursor := row + 1 }) with
        grant := some { g with frames := g.frames ++ [(rowFrame s.store job.profile row).getD (.clear row)] } }
    | none => s
  | none => s

/-! ### GRANT_COMPLETE (06, R124) -/

/-- The grant has come to its end (06, R124, R127, R129, R137), as its job and its frames stand at the GRANT_COMPLETE: no stop
is held from an earlier moment. While a row stands that it may take, a GRANT_COMPLETE is no occasion and changes nothing
(DESIGN CHOICE, log 25). -/
def Grant.ended (g : Grant) (store : Store) (job : Job) : Bool :=
  match job.state with
  | .wipe => true
  | .verify => true
  | .sweep => !g.maySweep store job
  | .drain => (g.mayDrain job).isNone
  | .freeze => (g.mayDrain job).isNone
  | .completed => true
  | .failed _ => true
  | .aborted => true

/-- The grant's frames are handed to the target lane's transmitter as one burst (04, R82; 06, R124). -/
def State.handOver (s : State) (g : Grant) (job : Job) : State :=
  let l := s.lane job.slot
  s.setLane job.slot { l with tx := l.tx.take g.frames (.job g.job) none }

/-- A grant completes (06, R124): with its burst handed over, or with no burst, which may be the end of the job's work; the
port is free and the arbiter chooses (R126). -/
def State.completeGrant (s : State) : State :=
  match s.grantJob with
  | some (g, job) =>
    if g.ended s.store job then
      let s := { s with grant := none }
      (if g.frames = [] then s.endOfWork g.job else s.handOver g job).arbitrate
    else s
  | none => s

/-! ### FREEZE_TIMER_EXPIRY (07, R163 and R164) -/

/-- The return to DRAIN at a freeze expiry on the job's own fields (07, R163). -/
def Job.thaw (j : Job) : Job :=
  { (j.startRound).startPass (min j.policy.passLimit (j.pass + 1)) with
    freezeAttempts := j.freezeAttempts + 1, freezeTimer := none }

/-- The freeze timer of a job expires, once its time has run out (07, R163 and R164; log 2): a new drain pass, or
FREEZE_EXHAUSTED at the third expiry. -/
def State.freezeExpired (s : State) (j : JobNo) : State :=
  match s.job j with
  | some job =>
    if job.state.frozen = true ∧ Timer.ranOut job.freezeTimer = true then
      if job.freezeAttempts + 1 < Config.maxFreezes then
        ((((s.setJob j (some job.thaw)).closeGrant j).endOfWork j)).arbitrate
      else
        ((s.setJob j (some { job with freezeAttempts := job.freezeAttempts + 1 })).endJob j
          (.failed .freezeExhausted)).arbitrate
    else s
  | none => s

/-! ### SAMPLE_TIMER_EXPIRY (07, R151 to R153) -/

/-- One step of an estimate (07, R152): E + trunc((16 × s − E) ÷ 2^k). -/
def filterEstimate (shift e sample : Nat) : Nat :=
  ((e : Int) + Int.tdiv (16 * (sample : Int) - (e : Int)) ((2 ^ shift : Nat) : Int)).toNat

/-- An estimate after an expiry (07, R151): the seed, or the filter. -/
def nextEstimate (sampled shift e sample : Nat) : Nat :=
  if sampled = 0 then 16 * sample else filterEstimate shift e sample

/-- The job after an expiry of its sample timer (07, R151 and R153). -/
def Job.sample (j : Job) : Job :=
  { j with
    ea := nextEstimate j.sampled j.policy.shift j.ea j.arrivals
    es := nextEstimate j.sampled j.policy.shift j.es j.sends
    fastest := max j.fastest j.sends, slowest := min j.slowest j.sends
    sampled := saturate (j.sampled + 1), arrivals := 0, sends := 0
    sampleTimer := some Config.samplePeriod, mark := j.mark || decide (j.sampled = 0) }

/-- The sample timer of a job expires, once its time has run out (07, R149 and R151; log 2). -/
def State.sampleExpired (s : State) (j : JobNo) : State :=
  match s.job j with
  | some job => if Timer.ranOut job.sampleTimer then s.setJob j (some job.sample) else s
  | none => s

/-! ### Meanings -/

/-- SWEEP_EXAMINATION (06, R129). -/
def execSweepExamination (s : State) : Host.Outcome State Fault Refusal :=
  .next (s.unlessReset State.examineRow)

/-- DRAIN_ROW_TAKE (06, R137). -/
def execDrainRowTake (s : State) : Host.Outcome State Fault Refusal :=
  .next (s.unlessReset State.takeRow)

/-- GRANT_COMPLETE (06, R124). -/
def execGrantComplete (s : State) : Host.Outcome State Fault Refusal :=
  .next (s.unlessReset State.completeGrant)

/-- FREEZE_TIMER_EXPIRY (07, R163). -/
def execFreezeTimerExpiry (job : JobNo) (s : State) : Host.Outcome State Fault Refusal :=
  .next (s.unlessReset fun s => s.freezeExpired job)

/-- SAMPLE_TIMER_EXPIRY (07, R151). -/
def execSampleTimerExpiry (job : JobNo) (s : State) : Host.Outcome State Fault Refusal :=
  .next (s.unlessReset fun s => s.sampleExpired job)

end Sys2Proof.Machine
end

