-- ==== Sys2Proof/Machine/CopyRequests.lean ====
section
/-! DEFINITION. Copy requests (06): COPY_START, COPY_ABORT, COPY_STATUS. -/

namespace Sys2Proof.Machine

/-- A value brought into a range (06, R121). -/
def clamp (low high v : Nat) : Nat := max low (min high v)

/-- The stall-action code (10, R200). -/
def readStallAction (b : Byte) : Option StallAction :=
  if b = 1#8 then some .force else if b = 2#8 then some .abandon else none

/-- The verify code (10, R200). -/
def readVerify (b : Byte) : Option Bool := if b = 0#8 then some false else if b = 1#8 then some true else none

/-- The policy of a COPY_START as stored (06, R121; 10, R200): `none` where the stall-action or verify code is unknown. -/
def requestPolicy (m : List Byte) : Option Policy :=
  match readStallAction (byteAt m 12), readVerify (byteAt m 14) with
  | some stallAction, some verify =>
    some
      { budget := max 1 (fieldAt m 9 2), stallLimit := clamp 1 15 (natAt m 11), stallAction
        passLimit := clamp 1 63 (natAt m 13), verify, shift := min 6 (natAt m 15) }
  | _, _ => none

/-- The lowest-numbered free entry of the job table (06, R122). -/
def State.freeJob (s : State) : Option JobNo := allJobs.find? fun j => (s.job j).isNone

/-- A job at its acceptance (06, R122; 07, R148 and R166). -/
def Job.accepted (i : Slot) (profile : Profile) (policy : Policy) : Job :=
  { slot := i, profile, state := .wipe, sweepCursor := 0, drainCursor := 0, dirty := [], pass := 0, previous := none
    stall := 0, freezeAttempts := 0, roundsFailed := 0, freezeTimer := none, progress := 0, policy
    sampleTimer := none, arrivals := 0, sends := 0, sampled := 0, ea := 0, es := 0, fastest := 0, slowest := 65535
    lastEvaluation := none, verifySegment := 0, answered := 0, mismatched := [], mark := true }

/-- The checks of COPY_START in their order (06, R120): a refusal, or the slot, its board facts, the policy and the entry. -/
def State.copyVerdict (s : State) (m : List Byte) : Except Status (Slot × BoardFacts × Policy × JobNo) :=
  match requestSlot m, requestPolicy m with
  | some i, some policy =>
    if s.store.phase ≠ .initialized then .error .notReady
    else
      match (s.lane i).state, (s.lane i).facts with
      | .ready, some facts =>
        if 2 ^ facts.exponent < s.store.size then .error .targetTooSmall
        else
          match s.freeJob with
          | some j => .ok (i, facts, policy, j)
          | none => .error .noJobSlot
      | _, _ => .error .wrongState
  | _, _ => .error .badRequest

/-- The acceptance of COPY_START (06, R122): the entry, and the lane from READY to LOADING with its cause absent (03, R55). -/
def State.startJob (s : State) (i : Slot) (facts : BoardFacts) (policy : Policy) (j : JobNo) : State :=
  ((s.setJob j (some (Job.accepted i facts.profile policy))).setLane i
    { (s.lane i).goto .loading with cause := none }).arbitrate

/-- COPY_START decided (06, R120 to R122). -/
def State.decideCopyStart (s : State) (m : List Byte) : State :=
  match s.copyVerdict m with
  | .error status => s.refuse m status
  | .ok (i, facts, policy, j) => (s.startJob i facts policy j).respond m .ok (.jobStarted j policy)

/-- COPY_ABORT decided (06, R143). -/
def State.decideCopyAbort (s : State) (m : List Byte) : State :=
  match requestSlot m with
  | none => s.refuse m .badRequest
  | some i =>
    match s.jobOn i with
    | none => s.refuse m .noJob
    | some j => (s.endJob j .aborted).arbitrate.respond m .ok (.jobNumber j)

/-- The entry that a COPY_STATUS selects (06, R146): `.error` for a selector or number out of range, `.ok none` where no
entry is selected. -/
def State.selectJob (s : State) (m : List Byte) : Except Status (Option JobNo) :=
  if byteAt m 8 = 1#8 then
    match jobOf (byteAt m 9) with
    | some j => .ok (if (s.job j).isSome then some j else none)
    | none => .error .badRequest
  else if byteAt m 8 = 2#8 then
    match slotOf (byteAt m 9) with
    | some i => .ok ((s.jobOn i).or (allJobs.find? fun j => targeted i (s.job j)))
    | none => .error .badRequest
  else .error .badRequest

/-- COPY_STATUS decided (06, R146). -/
def State.decideCopyStatus (s : State) (m : List Byte) : State :=
  match s.selectJob m with
  | .error status => s.refuse m status
  | .ok none => s.refuse m .noJob
  | .ok (some j) =>
    match s.job j with
    | some job => s.respond m .ok (.job (job.snapshot j))
    | none => s.refuse m .noJob

/-- COPY_START (06, R120). -/
def execCopyStart (s : State) : Host.Outcome State Fault Refusal :=
  .next (s.takeRequest (· == 12#8) State.decideCopyStart)

/-- COPY_ABORT (06, R143). -/
def execCopyAbort (s : State) : Host.Outcome State Fault Refusal :=
  .next (s.takeRequest (· == 13#8) State.decideCopyAbort)

/-- COPY_STATUS (06, R146). -/
def execCopyStatus (s : State) : Host.Outcome State Fault Refusal :=
  .next (s.takeRequest (· == 14#8) State.decideCopyStatus)

end Sys2Proof.Machine
end

