-- ==== Sys2Proof/Machine/Identification.lean ====
section
/-! DEFINITION. Board identification (03, section 3.4): ID_ATTEMPT_COMPLETE, ID_NOT_ACKNOWLEDGED, ID_ARBITRATION_LOST,
ID_WAIT_EXPIRY. -/

namespace Sys2Proof.Machine

/-- The head's identification ends with an outcome for its lane, and the next slot is served (03, R60). -/
def State.endIdentification (s : State) (i : Slot) (l : Lane) : State :=
  { s.setLane i l with master := s.master.remove i }

/-- The lane as the descriptor's check leaves it (03, R64 and R65): TRAINING with its board facts, or FAULTED ID_INVALID. -/
def Lane.identified (l : Lane) (descriptor : Vector Byte 16) : Lane :=
  match readDescriptor descriptor with
  | some facts => l.train facts
  | none => l.fault .idInvalid

/-- The end of an attempt. In the microsecond in which a seating event has abandoned an attempt, an end is that attempt's and its
outcome is discarded, whatever slot has been served since (03, R66; log 26); otherwise it is the end of the attempt in progress
on the head slot. -/
def State.attemptEnds (s : State) (effect : Slot → State → State) : State :=
  if s.master.abandoned then { s with master := { s.master with abandoned := false } }
  else match s.master.attempting with
    | some i => effect i s
    | none => s

/-- An attempt completes at its STOP (03, R61 and R64). -/
def State.completeAttempt (descriptor : Vector Byte 16) (i : Slot) (s : State) : State :=
  s.endIdentification i ((s.lane i).identified descriptor)

/-- The PROM has not acknowledged (03, R62). -/
def State.countNack (i : Slot) (s : State) : State :=
  if s.master.nacks + 1 < Config.maxNacks then
    { s with master := { s.master with nacks := s.master.nacks + 1 }.wait }
  else s.endIdentification i ((s.lane i).fault .idUnreadable)

/-- The master has lost arbitration (03, R63). -/
def State.countLoss (i : Slot) (s : State) : State :=
  if s.master.losses + 1 < Config.maxLosses then
    { s with master := { s.master with losses := s.master.losses + 1 }.wait }
  else s.endIdentification i ((s.lane i).fault .idUnreadable)

/-- The wait between attempts expires, once its time has run out, and a new attempt begins (03, R62 and R63; log 2). -/
def IdMaster.resume (m : IdMaster) : IdMaster :=
  match m.phase with
  | .waiting n => if n = 0 then { m with phase := .attempt } else m
  | .idle => m
  | .attempt => m

/-- ID_ATTEMPT_COMPLETE (03, R64 and R66). -/
def execIdAttemptComplete (descriptor : Vector Byte 16) (s : State) : Host.Outcome State Fault Refusal :=
  .next (s.unlessReset fun s => s.attemptEnds (State.completeAttempt descriptor))

/-- ID_NOT_ACKNOWLEDGED (03, R62 and R66). -/
def execIdNotAcknowledged (s : State) : Host.Outcome State Fault Refusal :=
  .next (s.unlessReset fun s => s.attemptEnds State.countNack)

/-- ID_ARBITRATION_LOST (03, R63 and R66). -/
def execIdArbitrationLost (s : State) : Host.Outcome State Fault Refusal :=
  .next (s.unlessReset fun s => s.attemptEnds State.countLoss)

/-- ID_WAIT_EXPIRY (03, R62). -/
def execIdWaitExpiry (s : State) : Host.Outcome State Fault Refusal :=
  .next (s.unlessReset fun s => { s with master := s.master.resume })

end Sys2Proof.Machine
end

