-- ==== Sys2Proof/Machine/LaneRequests.lean ====
section
/-! DEFINITION. Lane requests (03, section 3.3; 05, R105): LANE_STATUS, LANE_RESET, LANE_RELEASE, LANE_CLEAR_ALARM. -/

namespace Sys2Proof.Machine

/-- LANE_STATUS decided (03, R59). -/
def State.decideLaneStatus (s : State) (m : List Byte) : State :=
  match requestSlot m with
  | none => s.refuse m .badRequest
  | some i => s.respond m .ok (.lane (s.laneSnapshot i))

/-- The lane states that LANE_RESET accepts (03, R57). -/
def LaneState.resettable : LaneState → Bool
  | .faulted => true
  | .ready => true
  | .live => true
  | .empty => false
  | .identifying => false
  | .training => false
  | .loading => false
  | .extracting => false

/-- An accepted LANE_RESET on the lane (03, R57): re-identified when the board is seated and closed, else EMPTY. -/
def State.resetLane (s : State) (i : Slot) : State :=
  let l := s.lane i
  if l.present = true ∧ l.lever = true then s.identify i else s.setLane i (l.vacate none)

/-- LANE_RESET decided (03, R57). -/
def State.decideLaneReset (s : State) (m : List Byte) : State :=
  match requestSlot m with
  | none => s.refuse m .badRequest
  | some i =>
    if (s.lane i).state.resettable then
      let s := s.resetLane i
      s.respond m .ok (.laneState i (s.lane i).state)
    else s.refuse m .wrongState

/-- LANE_RELEASE decided (03, R58). -/
def State.decideLaneRelease (s : State) (m : List Byte) : State :=
  match requestSlot m with
  | none => s.refuse m .badRequest
  | some i =>
    let l := s.lane i
    if l.state = .live then
      (s.setLane i { l.abandon.goto .ready with cause := some .released }).respond m .ok (.laneState i .ready)
    else s.refuse m .wrongState

/-- LANE_CLEAR_ALARM decided (05, R105). -/
def State.decideLaneClearAlarm (s : State) (m : List Byte) : State :=
  match requestSlot m with
  | none => s.refuse m .badRequest
  | some i =>
    let l := s.lane i
    if l.state = .live then
      (s.setLane i { l with live := { l.live with alarm := false, watermark := l.live.depth } }).respond m .ok
        (.laneDepth i l.live.depth l.live.depth)
    else s.refuse m .wrongState

/-- LANE_STATUS (03, R59). -/
def execLaneStatus (s : State) : Host.Outcome State Fault Refusal :=
  .next (s.takeRequest (· == 8#8) State.decideLaneStatus)

/-- LANE_RESET (03, R57). -/
def execLaneReset (s : State) : Host.Outcome State Fault Refusal :=
  .next (s.takeRequest (· == 9#8) State.decideLaneReset)

/-- LANE_RELEASE (03, R58). -/
def execLaneRelease (s : State) : Host.Outcome State Fault Refusal :=
  .next (s.takeRequest (· == 10#8) State.decideLaneRelease)

/-- LANE_CLEAR_ALARM (05, R105). -/
def execLaneClearAlarm (s : State) : Host.Outcome State Fault Refusal :=
  .next (s.takeRequest (· == 11#8) State.decideLaneClearAlarm)

end Sys2Proof.Machine
end

