-- ==== Sys2Proof/Machine/Link.lean ====
section
/-! DEFINITION. The lane link (04, section 4.4): TRANSMISSION_COMPLETE, BURST_ACK, ACK_TIMEOUT. -/

namespace Sys2Proof.Machine

/-- A transmission has left the part (04, R83). -/
def Lane.sent (l : Lane) : Lane :=
  match l.tx.phase with
  | .sending => if l.state = .training then l.trainingSent else { l with tx := l.tx.await }
  | .idle => l
  | .awaiting => l

/-- The burst that awaits its acknowledgement. -/
def Transmitter.awaited (t : Transmitter) : Option Burst :=
  match t.phase with
  | .awaiting => t.outstanding
  | .idle => none
  | .sending => none

/-- The burst's last frame asks for a digest, AUDIT or VERIFY (04, R85). -/
def Burst.owesDigest (b : Burst) : Bool :=
  match b.frames.getLast? with
  | some f => f.asksDigest
  | none => false

/-- The matching acknowledgement retires the burst (04, R84 and R85): status OK, and a digest where the burst owes one. -/
def Burst.retiredBy (b : Burst) (ok : Bool) (digest : Option Word32) : Bool := ok && (!b.owesDigest || digest.isSome)

/-- A LIVE burst's retirement (04, R91): an AUDIT's digest goes to the comparison with the snapshot. -/
def Lane.retiredLive (store : Store) (set : Settings) (l : Lane) (b : Burst) (digest : Option Word32) : Lane :=
  match b.frames.getLast?, digest, b.snapshot with
  | some (.audit segment), some board, some master => l.compareAudit store set segment board master
  | _, _, _ => l

/-- The burst is retired and reported to its client (04, R84, R91, R92); the arbiter then chooses if the job has become
eligible (06, R126; log 13). -/
def State.retireBurst (s : State) (i : Slot) (b : Burst) (digest : Option Word32) : State :=
  let l := { s.lane i with tx := (s.lane i).tx.release }
  match b.client with
  | .training => s.setLane i l
  | .applyQueue => s.setLane i (l.retiredLive s.store s.settings b digest)
  | .job j => ((s.setLane i l).reportRetired j b.frames digest).arbitrate

/-- A BURST_ACK is taken (04, R84 to R86 and R88). -/
def State.takeAck (s : State) (i : Slot) (seq : Byte) (ok : Bool) (digest : Option Word32) : State :=
  match (s.lane i).tx.awaited with
  | some b =>
    if b.seq = seq then
      if b.retiredBy ok digest then s.retireBurst i b digest else s.failBurst i b
    else s
  | none => s

/-- The acknowledgement timer expires (04, R86), once its time has run out (log 2). -/
def State.ackExpired (s : State) (i : Slot) : State :=
  match (s.lane i).tx.awaited with
  | some b => if Timer.ranOut (s.lane i).tx.ackTimer then s.failBurst i b else s
  | none => s

/-- TRANSMISSION_COMPLETE (04, R83). -/
def execTransmissionComplete (slot : Slot) (s : State) : Host.Outcome State Fault Refusal :=
  .next (s.unlessReset fun s => s.setLane slot (s.lane slot).sent)

/-- BURST_ACK (04, R84; 10, R203): a unit that is not a BURST_ACK reply is discarded (04, R77; log 17). -/
def execBurstAck (slot : Slot) (reply : List Byte) (s : State) : Host.Outcome State Fault Refusal :=
  .next (s.unlessReset fun s =>
    match readReply reply with
    | some (.ack seq ok digest) => s.takeAck slot seq ok digest
    | _ => s)

/-- ACK_TIMEOUT (04, R86). -/
def execAckTimeout (slot : Slot) (s : State) : Host.Outcome State Fault Refusal :=
  .next (s.unlessReset fun s => s.ackExpired slot)

end Sys2Proof.Machine
end

