-- ==== Sys2Proof/Machine/LiveEvents.lean ====
section
/-! DEFINITION. Live lanes (04, R90; 05): TRANSMITTER_FILL and AUDIT_TIMER_EXPIRY. -/

namespace Sys2Proof.Machine

/-- The lane can fill its transmitter (04, R90). -/
def Lane.mayFill (l : Lane) : Bool :=
  decide (l.state = .live) && decide (l.tx.phase = .idle) && !l.live.queue.isEmpty

/-- The dequeue of a fill and its burst (04, R90; 05, R100). -/
def Lane.dequeue (l : Lane) : Lane :=
  let entries := takeEntries Config.burstFrames l.live.queue
  { l with tx := l.tx.take (entries.1.map ApplyEntry.frame) .applyQueue (snapshotOf entries.1)
           live := { l.live with queue := entries.2 } }

/-- A fill (04, R90; 05, R100): the dequeue, the alarm tested for clearing, then a repair step. -/
def Lane.fill (store : Store) (set : Settings) (l : Lane) : Lane :=
  if l.mayFill then (l.dequeue.testClear set).repairStep store set else l

/-- An audit timer expiry (05, R106 and R107), once the timer's time has run out (log 2): the scheduler acts, and the timer
starts again for one more interval. Before that the timer has not expired, so an expiry that a SET_AUDIT write has overtaken
does not happen (09, R193). -/
def Lane.auditTick (store : Store) (set : Settings) (l : Lane) : Lane :=
  if l.state = .live ∧ Timer.ranOut l.live.auditTimer = true then
    let l := l.auditExpiry store set
    { l with live := { l.live with auditTimer := auditTimerFor set.interval } }
  else l

/-- TRANSMITTER_FILL (04, R90). -/
def execTransmitterFill (slot : Slot) (s : State) : Host.Outcome State Fault Refusal :=
  .next (s.unlessReset fun s => s.setLane slot ((s.lane slot).fill s.store s.settings))

/-- AUDIT_TIMER_EXPIRY (05, R107). -/
def execAuditTimerExpiry (slot : Slot) (s : State) : Host.Outcome State Fault Refusal :=
  .next (s.unlessReset fun s => s.setLane slot ((s.lane slot).auditTick s.store s.settings))

end Sys2Proof.Machine
end

