-- ==== Sys2Proof/Machine/Port.lean ====
section
/-! DEFINITION. The port words and notices (08): REQUEST_PORT_WRITE, RESPONSE_PORT_READ, PORT_WORD_WRITE_DISCARDED and
NOTICE_PLACE, and the two reads that change nothing. -/

namespace Sys2Proof.Machine

/-! ### Port words (08, section 8.1) -/

/-- A transfer of `n` bytes from a source: its first bytes, with zero bytes after its end (08, R174 and R181). -/
def transfer (n : Nat) (source : List Byte) : List Byte := (source ++ List.replicate n 0).take n

/-- The credit (08, R174): free entries of the request queue; 0 while in reset (08, R188). -/
def State.credit (s : State) : Nat := if s.inReset then 0 else Config.requestCapacity - s.requests.length

/-- A read of `n` bytes of the credit word (08, R174): it changes nothing, and the table has no row for it (log 6). -/
def State.creditWordRead (s : State) (n : Nat) : List Byte := transfer n (toBytes 4 s.credit)

/-- A read of `n` bytes of the request port (08, R174): zero bytes; it changes nothing, and the table has no row for it
(log 6). -/
def requestPortRead (n : Nat) : List Byte := List.replicate n 0

/-- A write to the request port of a part that is not in reset (08, R175 and R176). -/
def State.writeRequest (s : State) (bytes : List Byte) : State :=
  if bytes.length = Config.messageBytes ∧ s.requests.length < Config.requestCapacity then
    { s with requests := s.requests ++ [bytes] }
  else { s with overrun := true }

/-- What a read of the response port returns from the head message, or from NONE when the queue is empty (08, R181) or the
part is in reset (08, R188). -/
def State.responseHead (s : State) : List Byte :=
  match s.inReset, s.responses with
  | false, m :: _ => m.encode
  | _, _ => noneMessage

/-- A read of the response port (08, R181): of 128 bytes it removes the head message, of any other length nothing. -/
def State.readResponse (s : State) (n : Nat) : State :=
  { s with readData := transfer n s.responseHead
           responses := if s.inReset = false ∧ n = Config.messageBytes then s.responses.tail else s.responses }

/-! ### Notices (08, section 8.5) -/

/-- The position's mark is pending (08, R183): positions 0..15 are lanes, 16..19 jobs. -/
def State.pendingMark (s : State) (p : Fin 20) : Bool :=
  if h : p.val < 16 then (s.lane ⟨p.val, h⟩).mark
  else
    match s.job ⟨p.val - 16, by omega⟩ with
    | some job => job.mark
    | none => false

/-- The twenty positions from a pointer upward, wrapping from 19 to 0 (08, R184). -/
def positionsFrom (p : Fin 20) : List (Fin 20) := (List.range 20).map fun k => p + Fin.ofNat 20 k

/-- The first pending mark met from the search pointer (08, R184). -/
def State.nextMark (s : State) : Option (Fin 20) := (positionsFrom s.noticePointer).find? s.pendingMark

/-- A LANE_NOTICE (08, R185; 10, section 10.2). -/
def State.laneNotice (s : State) (i : Slot) : OutMessage :=
  { tag := 0, kind := .laneNotice, requestKind := 0, status := .ok, overrun := false, body := .lane (s.laneSnapshot i) }

/-- A JOB_NOTICE (08, R185; 10, section 10.2). -/
def jobNotice (j : JobNo) (job : Job) : OutMessage :=
  { tag := 0, kind := .jobNotice, requestKind := 0, status := .ok, overrun := false, body := .job (job.snapshot j) }

/-- The entry after its notice: its mark cleared, and released if the notice carries a terminal outcome (06, R145). -/
def Job.noticed (job : Job) : Option Job := if job.state.working then some { job with mark := false } else none

/-- A notice for one lane is placed (08, R184 and R185). -/
def State.placeLaneNotice (s : State) (i : Slot) : State :=
  (s.place (s.laneNotice i)).setLane i { s.lane i with mark := false }

/-- A notice for one job is placed (08, R184 and R185). -/
def State.placeJobNotice (s : State) (j : JobNo) : State :=
  match s.job j with
  | some job => (s.place (jobNotice j job)).setJob j job.noticed
  | none => s

/-- A notice for a position is placed, and the pointer moves past it (08, R184). -/
def State.placeNoticeAt (s : State) (p : Fin 20) : State :=
  { (if h : p.val < 16 then s.placeLaneNotice ⟨p.val, h⟩ else s.placeJobNotice ⟨p.val - 16, by omega⟩) with
    noticePointer := p + 1 }

/-- One notice placing (08, R184): with 16 free entries and a mark pending. -/
def State.placeNotice (s : State) : State :=
  if s.freeEntries < Config.noticeRoom then s
  else
    match s.nextMark with
    | some p => s.placeNoticeAt p
    | none => s

/-! ### Meanings -/

/-- REQUEST_PORT_WRITE (08, R175 and R176); in reset the write is discarded and sets no flag (08, R188). -/
def execRequestPortWrite (bytes : List Byte) (s : State) : Host.Outcome State Fault Refusal :=
  .next (s.unlessReset fun s => s.writeRequest bytes)

/-- RESPONSE_PORT_READ (08, R181). -/
def execResponsePortRead (length : Nat) (s : State) : Host.Outcome State Fault Refusal :=
  .next (s.readResponse length)

/-- PORT_WORD_WRITE_DISCARDED (08, R174): no effect, whichever word and whatever the bytes. -/
def execPortWordWriteDiscarded (_word : PortWord) (_bytes : List Byte) (s : State) :
    Host.Outcome State Fault Refusal :=
  .next s

/-- NOTICE_PLACE (08, R184). -/
def execNoticePlace (s : State) : Host.Outcome State Fault Refusal :=
  .next (s.unlessReset State.placeNotice)

end Sys2Proof.Machine
end

