-- ==== Sys2Proof/Machine/Resets.lean ====
section
/-! DEFINITION. The three resets (08, sections 8.6 and 8.7; 09, section 9.4): SOFT_RESET, POWER_ON, RESET_PIN_ASSERT,
RESET_END. -/

namespace Sys2Proof.Machine

/-- Every block at its reset values, with the store given: scanner 03 R48, lanes 03 R73, identification master 03 R74,
transmitters 04 R96, live state 05 R116, job table and arbiter 06 R147, request port 08 R188. The settings, the cause and
the outputs are left. -/
def State.resetBlocks (s : State) (store : Store) : State :=
  { s with
    requests := [], responses := [], overrun := false, storeInitTag := none, noticePointer := 0
    store, scanner := Scanner.reset, master := IdMaster.reset
    lanes := Vector.replicate 16 Lane.reset, jobs := Vector.replicate 4 none
    grant := none, freezePointer := 0, loadPointer := 0 }

/-- The end of a reset: the cause recorded (09, R195) and RESET_DONE placed on the emptied queue (08, R187). -/
def State.resetDone (s : State) (tag : Tag) (requestKind : Byte) (cause : ResetCause) : State :=
  { s with resetCause := cause }.place (OutMessage.resetDone tag requestKind cause s.store)

/-- SOFT_RESET decided (08, R186): the store kept when INITIALIZED (01, R23), the settings kept. -/
def State.decideSoftReset (s : State) (m : List Byte) : State :=
  (s.resetBlocks s.store.softReset).resetDone (tagOf m) (kindOf m) .soft

/-- A power-on or pin reset ends (08, R188; 09, R189, R195 and R196): the reset values are set, the settings take their
defaults, and the cause is POWER_ON when the reset began with the application of power. -/
def State.endReset (s : State) : State :=
  if s.inReset then
    ({ s.resetBlocks Store.reset with
        powerOnReset := false, pinAsserted := false, settings := Settings.defaults }).resetDone 0 0
      (if s.powerOnReset then .powerOn else .pin)
  else s

/-- SOFT_RESET (08, R186). -/
def execSoftReset (s : State) : Host.Outcome State Fault Refusal :=
  .next (s.takeRequest (· == 19#8) State.decideSoftReset)

/-- POWER_ON (08, R188; 09, R196): power is applied and the part is in reset. -/
def execPowerOn (s : State) : Host.Outcome State Fault Refusal :=
  .next { s.resetBlocks Store.reset with powerOnReset := true }

/-- RESET_PIN_ASSERT (09, R196): the pin holds the part in reset. -/
def execResetPinAssert (s : State) : Host.Outcome State Fault Refusal :=
  .next { s.resetBlocks Store.reset with pinAsserted := true }

/-- RESET_END (08, R188). -/
def execResetEnd (s : State) : Host.Outcome State Fault Refusal :=
  .next s.endReset

end Sys2Proof.Machine
end

