-- ==== Sys2Proof/Machine/Seating.lean ====
section
/-! DEFINITION. The slot sense scanner and the seating events (03, sections 3.1 and 3.2): SCAN, PRESENT_RISE, PRESENT_FALL,
LEVER_CLOSE, LEVER_OPEN. -/

namespace Sys2Proof.Machine

/-! ### SCAN (03, R45) -/

/-- The sample changes the input's accepted level at this scan (03, R45). -/
def Input.accepts (debounce : Nat) (x : Input) (sample : Bool) : Bool :=
  sample != x.level && decide (debounce ≤ x.count + 1)

/-- One input at one scan (03, R45). -/
def Input.scan (debounce : Nat) (x : Input) (sample : Bool) : Input :=
  if sample = x.level then { x with count := 0 }
  else if debounce ≤ x.count + 1 then { level := sample, count := 0 }
  else { x with count := x.count + 1 }

/-- The event that an accepted PRESENT level change delivers (03, R46). -/
def presentEvent (sample : Bool) : SeatEvent := if sample then .presentRise else .presentFall

/-- The event that an accepted LEVER level change delivers (03, R46). -/
def leverEvent (sample : Bool) : SeatEvent := if sample then .leverClose else .leverOpen

/-- The inputs of sixteen slots at one scan. -/
def scanInputs (debounce : Nat) (inputs : Vector Input 16) (samples : BitVec 16) : Vector Input 16 :=
  ⟨⟨allSlots.map fun i => inputs[i].scan debounce (samples.getLsbD i.val)⟩, by simp [allSlots]⟩

/-- The accepted-level events one scan delivers (03, R45 and R46). -/
def scanEvents (debounce : Nat) (c : Scanner) (present lever : BitVec 16) : List (Slot × SeatEvent) :=
  allSlots.flatMap fun i =>
    (if c.present[i].accepts debounce (present.getLsbD i.val) then [(i, presentEvent (present.getLsbD i.val))] else [])
    ++ (if c.lever[i].accepts debounce (lever.getLsbD i.val) then [(i, leverEvent (lever.getLsbD i.val))] else [])

/-- One scan of all 32 inputs (03, R45). -/
def Scanner.scan (debounce : Nat) (c : Scanner) (present lever : BitVec 16) : Scanner :=
  { present := scanInputs debounce c.present present
    lever := scanInputs debounce c.lever lever
    delivered := c.delivered ++ scanEvents debounce c present lever
    nextScan := Config.scanPeriod }

/-! ### Seating events at a lane (03, R50 to R54) -/

/-- An event is taken: it no longer stands delivered (03, R46; log 5). -/
def State.takeEvent (s : State) (i : Slot) (e : SeatEvent) : State :=
  { s with scanner := { s.scanner with delivered := s.scanner.delivered.erase (i, e) } }

/-- A lane leaves its state by a seating event (03, R52 and R53): an IDENTIFYING lane's slot leaves the FIFO (R66), and a
LOADING lane's job fails with cause TARGET_LOST (06, R140). -/
def State.leaveBySeating (s : State) (i : Slot) (l : Lane) : State :=
  match (s.lane i).state with
  | .identifying => { s.setLane i l with master := s.master.abandon i }
  | .loading => (s.setLane i l).failJobOn i .targetLost
  | _ => s.setLane i l

/-- PRESENT-rise (03, R50 and R51). In states other than EMPTY it does not occur; the lane's view alone would change. -/
def State.takePresentRise (s : State) (i : Slot) : State :=
  let l := s.lane i
  if l.present = true then s
  else
    let s := s.setLane i { l with present := true }
    if l.state = .empty ∧ l.lever = true then s.identify i else s

/-- LEVER-close (03, R50 and R51). In states other than EMPTY and EXTRACTING it does not occur; the lane's view alone would
change. -/
def State.takeLeverClose (s : State) (i : Slot) : State :=
  let l := s.lane i
  if l.lever = true then s
  else
    let s := s.setLane i { l with lever := true }
    if (l.state = .empty ∧ l.present = true) ∨ l.state = .extracting then s.identify i else s

/-- PRESENT-fall (03, R50 and R53): EMPTY stays EMPTY, EXTRACTING keeps its cause, every other state takes
SURPRISE_REMOVAL. -/
def State.takePresentFall (s : State) (i : Slot) : State :=
  let l := s.lane i
  if l.present = false then s
  else
    let seen := { l with present := false }
    match l.state with
    | .empty => s.setLane i seen
    | .extracting => s.setLane i (seen.vacate l.cause)
    | _ => s.leaveBySeating i (seen.vacate (some .surpriseRemoval))

/-- LEVER-open (03, R50 and R52): EMPTY stays EMPTY; in EXTRACTING it does not occur; every other state extracts. -/
def State.takeLeverOpen (s : State) (i : Slot) : State :=
  let l := s.lane i
  if l.lever = false then s
  else
    let seen := { l with lever := false }
    match l.state with
    | .empty => s.setLane i seen
    | .extracting => s.setLane i seen
    | _ => s.leaveBySeating i seen.extract

/-! ### Meanings -/

/-- The scan of a part whose scan period has run out (03, R45 and R48; log 2); between two scans nothing is sampled. -/
def State.scanned (s : State) (present lever : BitVec 16) : State :=
  if s.scanner.nextScan = 0 then { s with scanner := s.scanner.scan s.settings.debounce present lever } else s

/-- SCAN (03, R45). -/
def execScan (present lever : BitVec 16) (s : State) : Host.Outcome State Fault Refusal :=
  .next (s.unlessReset fun s => s.scanned present lever)

/-- PRESENT_RISE (03, R50). -/
def execPresentRise (slot : Slot) (s : State) : Host.Outcome State Fault Refusal :=
  .next (s.unlessReset fun s => (s.takeEvent slot .presentRise).takePresentRise slot)

/-- PRESENT_FALL (03, R53). -/
def execPresentFall (slot : Slot) (s : State) : Host.Outcome State Fault Refusal :=
  .next (s.unlessReset fun s => (s.takeEvent slot .presentFall).takePresentFall slot)

/-- LEVER_CLOSE (03, R50). -/
def execLeverClose (slot : Slot) (s : State) : Host.Outcome State Fault Refusal :=
  .next (s.unlessReset fun s => (s.takeEvent slot .leverClose).takeLeverClose slot)

/-- LEVER_OPEN (03, R52). -/
def execLeverOpen (slot : Slot) (s : State) : Host.Outcome State Fault Refusal :=
  .next (s.unlessReset fun s => (s.takeEvent slot .leverOpen).takeLeverOpen slot)

end Sys2Proof.Machine
end

