-- ==== Sys2Proof/Machine/SettingsRequests.lean ====
section
/-! DEFINITION. Settings and identity (09), and requests of unknown kind (08, R179): SET_SCAN, SET_LANE_ALARM, SET_AUDIT,
IDENTIFY. -/

namespace Sys2Proof.Machine

/-- The action of a settings request (10, R200): `some true` for WRITE, `some false` for READ. -/
def readSettingsAction (m : List Byte) : Option Bool :=
  if byteAt m 8 = 1#8 then some false else if byteAt m 8 = 2#8 then some true else none

/-- The allowed debounce count a requested count is rounded up to (09, R191). -/
def roundDebounce (requested : Nat) : Nat :=
  if requested ≤ 4 then 4 else if requested ≤ 8 then 8 else if requested ≤ 16 then 16 else 32

/-- Every debounce counter set to 0, the accepted levels kept (03, R47). -/
def Scanner.clearCounters (c : Scanner) : Scanner :=
  { c with present := mapVector (fun x => { x with count := 0 }) c.present
           lever := mapVector (fun x => { x with count := 0 }) c.lever }

/-- SET_SCAN decided (09, R190 and R191; 03, R47). -/
def State.decideSetScan (s : State) (m : List Byte) : State :=
  match readSettingsAction m with
  | none => s.refuse m .badRequest
  | some false => s.respond m .ok (.scanSetting false s.settings.debounce false)
  | some true =>
    let count := roundDebounce (fieldAt m 9 2)
    { s with settings := { s.settings with debounce := count }, scanner := s.scanner.clearCounters }.respond m .ok
      (.scanSetting true count (count != fieldAt m 9 2))

/-- The lag-alarm mode code (10, R200). -/
def readMode (b : Byte) : Option AlarmMode :=
  if b = 1#8 then some .auto else if b = 2#8 then some .sticky else none

/-- SET_LANE_ALARM decided (09, R190 and R192; 05, R102). -/
def State.decideSetLaneAlarm (s : State) (m : List Byte) : State :=
  match readSettingsAction m with
  | none => s.refuse m .badRequest
  | some false => s.respond m .ok (.alarmSetting false s.settings.threshold s.settings.mode false)
  | some true =>
    match readMode (byteAt m 11) with
    | none => s.refuse m .badRequest
    | some mode =>
      let threshold := clamp 16 4096 (fieldAt m 9 2)
      { s with settings := { s.settings with threshold, mode } }.respond m .ok
        (.alarmSetting true threshold mode (threshold != fieldAt m 9 2))

/-- A LIVE lane's audit timer stopped and, when the interval is not 0, started for one whole interval (05, R106). -/
def Lane.restartAudit (interval : Nat) (l : Lane) : Lane :=
  if l.state = .live then { l with live := { l.live with auditTimer := auditTimerFor interval } } else l

/-- SET_AUDIT decided (09, R190 and R193; 05, R106). -/
def State.decideSetAudit (s : State) (m : List Byte) : State :=
  match readSettingsAction m with
  | none => s.refuse m .badRequest
  | some false => s.respond m .ok (.auditSetting false s.settings.interval false)
  | some true =>
    let interval := min 255 (fieldAt m 9 2)
    ({ s with settings := { s.settings with interval } }.mapLanes (Lane.restartAudit interval)).respond m .ok
      (.auditSetting true interval (interval != fieldAt m 9 2))

/-- IDENTIFY decided (09, R194). -/
def State.decideIdentify (s : State) (m : List Byte) : State :=
  s.respond m .ok (.identity s.store.phase s.store.size s.resetCause)

/-- A request of unknown kind decided (08, R179). -/
def State.decideUnknown (s : State) (m : List Byte) : State := s.refuse m .badRequest

/-- Kind codes 0 and 20..255 are unknown (10, section 10.2). -/
def unknownKind (b : Byte) : Bool := b == 0#8 || decide (20 ≤ b.toNat)

/-- SET_SCAN (09, R191). -/
def execSetScan (s : State) : Host.Outcome State Fault Refusal :=
  .next (s.takeRequest (· == 15#8) State.decideSetScan)

/-- SET_LANE_ALARM (09, R192). -/
def execSetLaneAlarm (s : State) : Host.Outcome State Fault Refusal :=
  .next (s.takeRequest (· == 16#8) State.decideSetLaneAlarm)

/-- SET_AUDIT (09, R193). -/
def execSetAudit (s : State) : Host.Outcome State Fault Refusal :=
  .next (s.takeRequest (· == 17#8) State.decideSetAudit)

/-- IDENTIFY (09, R194). -/
def execIdentify (s : State) : Host.Outcome State Fault Refusal :=
  .next (s.takeRequest (· == 18#8) State.decideIdentify)

/-- UNKNOWN_REQUEST_KIND (08, R179). -/
def execUnknownRequestKind (s : State) : Host.Outcome State Fault Refusal :=
  .next (s.takeRequest unknownKind State.decideUnknown)

end Sys2Proof.Machine
end

