-- ==== Sys2Proof/Machine/Training.lean ====
section
/-! DEFINITION. Lane training (03, section 3.5): ALIGN_STEP_TIMEOUT, PATTERN_REPLY_TIMEOUT, LOCKED, PATTERN_RESULT. -/

namespace Sys2Proof.Machine

/-- The lane is in TRAINING, in the step named. -/
def Lane.inStep (l : Lane) (step : TrainStep) : Bool := decide (l.state = .training ∧ l.step = some step)

/-- The ALIGN step timer expires (03, R68 and R71), once its time has run out (log 2). -/
def Lane.alignExpired (l : Lane) : Lane := if l.inStep .align && Timer.ranOut l.alignTimer then l.failAttempt else l

/-- The PATTERN reply timer expires (03, R69 and R72), once its time has run out (log 2). -/
def Lane.replyExpired (l : Lane) : Lane := if l.inStep .pattern && Timer.ranOut l.replyTimer then l.failAttempt else l

/-- A LOCKED is taken (03, R68, R70 and R71): it passes the ALIGN step the lane is in, and is ignored otherwise. -/
def Lane.takeLocked (l : Lane) : Lane := if l.inStep .align then l.beginPattern else l

/-- A PATTERN_RESULT is taken (03, R69 and R70): between the sending of the 64th TEST burst and the end of the step, which is
while the reply timer runs, its count decides the step; otherwise it is ignored (log 10). -/
def Lane.takePattern (l : Lane) (failures : Nat) : Lane :=
  if l.inStep .pattern && l.replyTimer.isSome then
    if failures ≤ 1 then l.passTraining else l.failAttempt
  else l

/-- ALIGN_STEP_TIMEOUT (03, R68). -/
def execAlignStepTimeout (slot : Slot) (s : State) : Host.Outcome State Fault Refusal :=
  .next (s.unlessReset fun s => s.setLane slot (s.lane slot).alignExpired)

/-- PATTERN_REPLY_TIMEOUT (03, R69). -/
def execPatternReplyTimeout (slot : Slot) (s : State) : Host.Outcome State Fault Refusal :=
  .next (s.unlessReset fun s => s.setLane slot (s.lane slot).replyExpired)

/-- LOCKED (03, R70; 10, R203): a unit that is not a LOCKED reply is discarded (04, R77; log 17). -/
def execLocked (slot : Slot) (reply : List Byte) (s : State) : Host.Outcome State Fault Refusal :=
  .next (s.unlessReset fun s =>
    match readReply reply with
    | some .locked => s.setLane slot (s.lane slot).takeLocked
    | _ => s)

/-- PATTERN_RESULT (03, R69; 10, R203): a unit that is not a PATTERN_RESULT reply is discarded (04, R77; log 17). -/
def execPatternResult (slot : Slot) (reply : List Byte) (s : State) : Host.Outcome State Fault Refusal :=
  .next (s.unlessReset fun s =>
    match readReply reply with
    | some (.pattern failures) => s.setLane slot ((s.lane slot).takePattern failures)
    | _ => s)

end Sys2Proof.Machine
end

