-- ==== Sys2Proof/Machine/Dispatch.lean ====
section
/-! DEFINITION. The meaning of every command: one arm per constructor of `Instr`, one meaning per arm. -/

namespace Sys2Proof.Machine

def exec (i : Instr) (s : State) : Host.Outcome State Fault Refusal :=
  match i with
  | .insert => Sys2Proof.Machine.execInsert s
  | .update => Sys2Proof.Machine.execUpdate s
  | .retire => Sys2Proof.Machine.execRetire s
  | .find => Sys2Proof.Machine.execFind s
  | .readRow => Sys2Proof.Machine.execReadRow s
  | .storeInit => Sys2Proof.Machine.execStoreInit s
  | .storeStats => Sys2Proof.Machine.execStoreStats s
  | .laneStatus => Sys2Proof.Machine.execLaneStatus s
  | .laneReset => Sys2Proof.Machine.execLaneReset s
  | .laneRelease => Sys2Proof.Machine.execLaneRelease s
  | .laneClearAlarm => Sys2Proof.Machine.execLaneClearAlarm s
  | .copyStart => Sys2Proof.Machine.execCopyStart s
  | .copyAbort => Sys2Proof.Machine.execCopyAbort s
  | .copyStatus => Sys2Proof.Machine.execCopyStatus s
  | .setScan => Sys2Proof.Machine.execSetScan s
  | .setLaneAlarm => Sys2Proof.Machine.execSetLaneAlarm s
  | .setAudit => Sys2Proof.Machine.execSetAudit s
  | .identify => Sys2Proof.Machine.execIdentify s
  | .softReset => Sys2Proof.Machine.execSoftReset s
  | .unknownRequestKind => Sys2Proof.Machine.execUnknownRequestKind s
  | .requestPortWrite bytes => Sys2Proof.Machine.execRequestPortWrite bytes s
  | .responsePortRead length => Sys2Proof.Machine.execResponsePortRead length s
  | .portWordWriteDiscarded word bytes => Sys2Proof.Machine.execPortWordWriteDiscarded word bytes s
  | .powerOn => Sys2Proof.Machine.execPowerOn s
  | .resetPinAssert => Sys2Proof.Machine.execResetPinAssert s
  | .resetEnd => Sys2Proof.Machine.execResetEnd s
  | .scan present lever => Sys2Proof.Machine.execScan present lever s
  | .presentRise slot => Sys2Proof.Machine.execPresentRise slot s
  | .presentFall slot => Sys2Proof.Machine.execPresentFall slot s
  | .leverClose slot => Sys2Proof.Machine.execLeverClose slot s
  | .leverOpen slot => Sys2Proof.Machine.execLeverOpen slot s
  | .idAttemptComplete descriptor => Sys2Proof.Machine.execIdAttemptComplete descriptor s
  | .idNotAcknowledged => Sys2Proof.Machine.execIdNotAcknowledged s
  | .idArbitrationLost => Sys2Proof.Machine.execIdArbitrationLost s
  | .idWaitExpiry => Sys2Proof.Machine.execIdWaitExpiry s
  | .alignStepTimeout slot => Sys2Proof.Machine.execAlignStepTimeout slot s
  | .patternReplyTimeout slot => Sys2Proof.Machine.execPatternReplyTimeout slot s
  | .locked slot reply => Sys2Proof.Machine.execLocked slot reply s
  | .patternResult slot reply => Sys2Proof.Machine.execPatternResult slot reply s
  | .transmissionComplete slot => Sys2Proof.Machine.execTransmissionComplete slot s
  | .burstAck slot reply => Sys2Proof.Machine.execBurstAck slot reply s
  | .ackTimeout slot => Sys2Proof.Machine.execAckTimeout slot s
  | .transmitterFill slot => Sys2Proof.Machine.execTransmitterFill slot s
  | .auditTimerExpiry slot => Sys2Proof.Machine.execAuditTimerExpiry slot s
  | .storeInitComplete => Sys2Proof.Machine.execStoreInitComplete s
  | .sweepExamination => Sys2Proof.Machine.execSweepExamination s
  | .drainRowTake => Sys2Proof.Machine.execDrainRowTake s
  | .grantComplete => Sys2Proof.Machine.execGrantComplete s
  | .freezeTimerExpiry job => Sys2Proof.Machine.execFreezeTimerExpiry job s
  | .sampleTimerExpiry job => Sys2Proof.Machine.execSampleTimerExpiry job s
  | .noticePlace => Sys2Proof.Machine.execNoticePlace s

end Sys2Proof.Machine
end

