-- ==== Sys2Proof/Machine/Time.lean ====
section
/-! DEFINITION. The passing of time (log 1): one microsecond, on every timer that runs. An expiry is a command of its own; a
timer that has counted down to 0 waits for it (log 2). -/

namespace Sys2Proof.Machine

/-- One microsecond on a timer. -/
def Timer.tick (t : Timer) : Timer := t.map fun n => n - 1

/-- One microsecond on the phase of the identification master: its wait grows shorter. -/
def MasterPhase.tick : MasterPhase → MasterPhase
  | .waiting n => .waiting (n - 1)
  | .idle => .idle
  | .attempt => .attempt

/-- One microsecond on the identification master; the end of an attempt abandoned before it comes no more (log 26). -/
def IdMaster.tick (m : IdMaster) : IdMaster := { m with phase := m.phase.tick, abandoned := false }

/-- One microsecond on a lane's timers. -/
def Lane.tick (l : Lane) : Lane :=
  { l with alignTimer := Timer.tick l.alignTimer, replyTimer := Timer.tick l.replyTimer
           tx := { l.tx with ackTimer := Timer.tick l.tx.ackTimer }
           live := { l.live with auditTimer := Timer.tick l.live.auditTimer } }

/-- One microsecond on a job's timers. -/
def Job.tick (j : Job) : Job :=
  { j with freezeTimer := Timer.tick j.freezeTimer, sampleTimer := Timer.tick j.sampleTimer }

/-- One microsecond of time for the part; in reset no timer runs. -/
def State.tick (s : State) : State :=
  if s.inReset then s
  else
    ({ s with scanner := { s.scanner with nextScan := s.scanner.nextScan - 1 }, master := s.master.tick }.mapLanes
      Lane.tick).mapJobs Job.tick

end Sys2Proof.Machine
end

