-- ==== Sys2Proof/Safety.lean ====
section
/-! DEFINITION. What a safe run keeps: the invariants of the part, each from the rules that state it, and the terms in which
statements about commands are written: a request that may be taken, the placing of its answer, and the closed forms of an
enqueue, an offer and a lane's ends. -/

namespace Sys2Proof

/-- The kind codes that a request command takes (10, section 10.2). -/
def Instr.takesKind : Instr → Byte → Bool
  | .insert, b => b == 1
  | .update, b => b == 2
  | .retire, b => b == 3
  | .find, b => b == 4
  | .readRow, b => b == 5
  | .storeInit, b => b == 6
  | .storeStats, b => b == 7
  | .laneStatus, b => b == 8
  | .laneReset, b => b == 9
  | .laneRelease, b => b == 10
  | .laneClearAlarm, b => b == 11
  | .copyStart, b => b == 12
  | .copyAbort, b => b == 13
  | .copyStatus, b => b == 14
  | .setScan, b => b == 15
  | .setLaneAlarm, b => b == 16
  | .setAudit, b => b == 17
  | .identify, b => b == 18
  | .softReset, b => b == 19
  | .unknownRequestKind, b => b == 0 || decide (20 ≤ b.toNat)
  | _, _ => false

end Sys2Proof

namespace Sys2Proof.Machine

/-! ### Requests and answers (08) -/

/-- The request `m` of kind code `code` stands at the head of the request queue, `rest` behind it, and the handler may take
it: the part is not in reset and the response queue has a free entry besides a reserved one (08, R177). -/
abbrev State.Offers (s : State) (code : Byte) (m : List Byte) (rest : List (List Byte)) : Prop :=
  s.inReset = false ∧ s.requests = m :: rest ∧ s.responses.length + s.reserved < 256 ∧ byteAt m 2 = code

/-- The state after a message is placed at the tail of the response queue: it carries the overrun flag and clears it
(08, R176), and onto an empty queue it raises one interrupt (08, R182). -/
def State.placed (s : State) (m : OutMessage) : State :=
  { s with
    responses := s.responses ++ [{ m with overrun := s.overrun }]
    overrun := false
    interrupts := if s.responses = [] then s.interrupts + 1 else s.interrupts }

/-- The state after the request `m` has left the queue and been answered with a status and a body (08, R177 and R178). -/
def State.answered (s : State) (m : List Byte) (rest : List (List Byte)) (status : Status) (body : Payload) : State :=
  { s with requests := rest }.placed
    { tag := BitVec.ofNat 16 (fieldAt m 0 2), kind := .response, requestKind := byteAt m 2, status, overrun := false
      body }

/-- The command `c` answers its request with a refusal and changes nothing else. -/
def State.Refuses (s : State) (c : Instr) (m : List Byte) (rest : List (List Byte)) (status : Status) : Prop :=
  exec c s = .next (s.answered m rest status .none)

/-- Some job in FREEZE or VERIFY has a profile that accepts the kind (02, R27). -/
def State.FreezeOn (s : State) (k : Kind) : Prop :=
  ∃ j job, s.job j = some job ∧ (job.state = .freeze ∨ job.state = .verify) ∧ job.profile.accepts k = true

/-- Some LIVE lane whose profile accepts the kind holds 4,096 entries on its apply queue (02, R28). -/
def State.QueueFullOn (s : State) (k : Kind) : Prop :=
  ∃ i, (s.lane i).state = .live ∧ (s.lane i).accepts k = true ∧ 4096 ≤ (s.lane i).live.queue.length

/-! ### Closed forms of shared effects -/

/-- A lane after one enqueue (05, R99, R101 and R103): the entry at the tail, the watermark raised to the new depth, a clear
alarm raised and the notice marked when the new depth is above the threshold. -/
def Lane.enqueued (threshold : Nat) (l : Lane) (e : ApplyEntry) : Lane :=
  { l with
    live :=
      { l.live with
        queue := l.live.queue ++ [e]
        watermark := max l.live.watermark (l.live.queue.length + 1)
        alarm := l.live.alarm || decide (threshold < l.live.queue.length + 1) }
    mark := l.mark || (!l.live.alarm && decide (threshold < l.live.queue.length + 1)) }

/-- A lane after an admission (02, R33): one enqueue on a LIVE lane whose profile accepts the kind and whose encoder gives an
entry, nothing on any other lane. -/
def Lane.admitted (threshold : Nat) (k : Kind) (entry : Profile → Option ApplyEntry) (l : Lane) : Lane :=
  if l.state = .live ∧ l.accepts k = true then
    match entry l.profile with
    | some e => l.enqueued threshold e
    | none => l
  else l

/-- A job after the offer of a changed row (06, R133 and R135; 07, R150): in SWEEP a row below the cursor, in DRAIN any row,
is added as one arrival unless the set holds it. -/
def Job.offered (k : Kind) (row : Nat) (j : Job) : Job :=
  if j.profile.accepts k = true ∧ ((j.state = .sweep ∧ row < j.sweepCursor) ∨ j.state = .drain) ∧ row ∉ j.dirty then
    { j with dirty := dirtyInsert row j.dirty, arrivals := min 65535 (j.arrivals + 1) }
  else j

/-- The part after an admission: the store written, the live lanes fed, the row offered to the jobs, and the arbiter's choice
made (02, R32; 06, R126). -/
def State.admission (s : State) (store : Store) (k : Kind) (row : Nat) (entry : Profile → Option ApplyEntry) : State :=
  { s with
    store
    lanes := s.lanes.map (Lane.admitted s.settings.threshold k entry)
    jobs := s.jobs.map (Option.map (Job.offered k row)) }.arbitrate

/-- The identification master after a slot is appended (03, R60). -/
def IdMaster.appended (m : IdMaster) (i : Slot) : IdMaster :=
  if m.fifo = [] then { fifo := [i], phase := .attempt, nacks := 0, losses := 0, abandoned := m.abandoned }
  else { m with fifo := m.fifo ++ [i] }

/-- The identification master after its head slot has left the FIFO (03, R60): the next slot's first attempt has begun, or
nothing is left to do. `abandoned` says if an attempt abandoned in this microsecond may still end (03, R66; log 26). -/
def IdMaster.nextServed (rest : List Slot) (abandoned : Bool) : IdMaster :=
  { fifo := rest, phase := if rest = [] then .idle else .attempt, nacks := 0, losses := 0, abandoned }

/-- The transmitter with nothing outstanding, its next sequence number kept (04, R84, R86 and R89). -/
def Transmitter.cleared (t : Transmitter) : Transmitter :=
  { phase := .idle, outstanding := none, ackTimer := none, nextSeq := t.nextSeq }

/-- The transmitter after taking a burst (04, R82). -/
def Transmitter.taken (t : Transmitter) (frames : List Frame) (client : Client) (snapshot : Option Word32) :
    Transmitter :=
  { phase := .sending
    outstanding := some
      { seq := t.nextSeq, frames, bytes := burstBody t.nextSeq frames ++ [burstCheck (burstBody t.nextSeq frames)]
        client, resends := 0, snapshot }
    ackTimer := none
    nextSeq := t.nextSeq + 1 }

/-- The lane at the start of an ALIGN step of an attempt (03, R67 and R68; 04, R93): its first burst of eight ALIGN frames is
handed over when the transmitter is IDLE. -/
def Lane.aligning (l : Lane) (attempt : Nat) : Lane :=
  { l with
    attempt, step := some .align, alignTimer := some 10000, replyTimer := none, testsTaken := 0
    tx := if l.tx.phase = .idle then l.tx.taken (List.replicate 8 .align) .training none else l.tx }

/-- The live state after the lane has left LIVE (05, R115). -/
def Live.ended (v : Live) : Live :=
  { queue := [], watermark := v.watermark, alarm := false, auditTimer := none, nextAudit := v.nextAudit, debt := 0
    mismatches := v.mismatches, repairs := [], repairOffset := 0 }

/-- What a lane has left of its work when it leaves its state (03, R52; 04, R94; 05, R115). -/
def Lane.stripped (l : Lane) : Lane :=
  { l with
    step := if l.state = .training then none else l.step
    alignTimer := if l.state = .training then none else l.alignTimer
    replyTimer := if l.state = .training then none else l.replyTimer
    tx := if l.state = .training ∨ l.state = .loading ∨ l.state = .live then l.tx.cleared else l.tx
    live := if l.state = .live then l.live.ended else l.live }

/-- The lane after it has left its state for another, with a cause (03, R49). -/
def Lane.moved (l : Lane) (state : LaneState) (cause : Option LaneCause) : Lane :=
  { l.stripped with state, cause, mark := true }

/-- The lane after it has entered EMPTY or IDENTIFYING: no board facts, no training (03, R51 and R53). -/
def Lane.cleared (l : Lane) (state : LaneState) (cause : Option LaneCause) : Lane :=
  { l.moved state cause with facts := none, attempt := 0, step := none }

/-- The job entry at a terminal outcome (06, R142). -/
def Job.ended (j : Job) (outcome : JobState) : Job :=
  { j with state := outcome, dirty := [], freezeTimer := none, sampleTimer := none, mark := true }

/-- The part after a job has ended with its lane already out of LOADING (06, R140 and R141): the entry terminal, a grant of
it ended, and the arbiter's choice made. -/
def State.jobLost (s : State) (j : JobNo) (job : Job) (cause : JobCause) : State :=
  { s with
    jobs := s.jobs.set j (some (job.ended (.failed cause)))
    grant := if s.granted j then none else s.grant }.arbitrate

/-! ### Valid records (01, R1 to R6) -/

/-- A body within the limits of R4 and R5, its fields within the widths of R199. -/
def Body.Valid (b : Body) : Prop :=
  (b.action = .forward → 1 ≤ b.hops.length ∧ b.hops.length ≤ 8) ∧ (b.action ≠ .forward → b.hops = []) ∧
  (∀ h ∈ b.hops, h.slot ≤ 15 ∧ h.port ≤ 63 ∧ h.rewrite ≤ 65535 ∧ 1 ≤ h.weight ∧ h.weight ≤ 255) ∧
  (∀ c ∈ b.counter, c ≤ 262143) ∧ (∀ c ∈ b.cls, c ≤ 7)

/-- A valid record in canonical form (01, R2 and R6). -/
def Record.Valid (r : Record) : Prop := r.key.valid = true ∧ r.key.canonical = r.key ∧ r.body.Valid

/-! ### Invariants of the record store (01) -/

/-- A store size that the store can have (01, R11 and R12). -/
def allowedSize (n : Nat) : Prop := n = 65536 ∨ n = 131072 ∨ n = 262144 ∨ n = 524288

/-- The row table and the free-row stack (01, R10, R15 and R23): rows strictly rising, below the store size, each holding a
valid canonical record; while INITIALIZED the stack holds exactly the free rows, each once; otherwise the table is empty. -/
structure Store.RowsExact (s : Store) : Prop where
  size_zero : s.phase = .uninitialized → s.size = 0
  size_allowed : s.phase ≠ .uninitialized → allowedSize s.size
  rising : Memory.wf s.rows
  below : ∀ c ∈ s.rows, c.1 < s.size
  valid : ∀ c ∈ s.rows, c.2.Valid
  empty : s.phase ≠ .initialized → s.rows = []
  stack_once : s.phase = .initialized → s.freeRows.Nodup
  stack_free : s.phase = .initialized → ∀ row, row ∈ s.freeRows ↔ row < s.size ∧ s.row row = none

/-- The entries of the key index: those in ways, then the overflow list. -/
def Store.entries (s : Store) : List IndexEntry := s.ways.map Way.entry ++ s.overflow

/-- The key index (01, R16 and R19): one entry for each live record and none else, no key twice, every way in its key's
bucket, at most eight ways of a bucket, at most 256 overflow entries, and each of those only while its bucket is full. -/
structure Store.IndexExact (s : Store) : Prop where
  keys_once : (s.entries.map IndexEntry.key).Nodup
  entry_iff : ∀ k row, { key := k, row : IndexEntry } ∈ s.entries ↔ ∃ r, s.row row = some r ∧ r.key = k
  way_bucket : ∀ w ∈ s.ways, w.bucket = s.bucketOf w.entry.key
  ways_fit : ∀ b, s.bucketLoad b ≤ 8
  overflow_fit : s.overflow.length ≤ 256
  overflow_full : ∀ e ∈ s.overflow, s.bucketLoad (s.bucketOf e.key) = 8

/-- The XOR of the contributions of the live records of a segment to its digest in a profile (01, R20). -/
def RowTable.digest (t : RowTable) (p : Profile) (segment : Nat) : Word32 :=
  t.foldr (fun c d => if c.1 / 4096 = segment then c.2.digest p ^^^ d else d) 0

/-- The digests (01, R20): while INITIALIZED, one per segment and profile, each the XOR over the segment's live records. -/
structure Store.DigestsExact (s : Store) : Prop where
  full_count : s.phase = .initialized → s.fullDigests.length = s.size / 4096
  compact_count : s.phase = .initialized → s.compactDigests.length = s.size / 4096
  exact : s.phase = .initialized → ∀ p segment, segment < s.size / 4096 → s.digest p segment = RowTable.digest s.rows p segment

/-! ### Invariants of the request port (08) -/

/-- The queues (08, R175, R180 and R181): at most 64 requests, each of 128 bytes; at most 256 outgoing messages, the reserved
entry counted; a reservation exactly while the store is INITIALIZING; and nothing queued in reset (R188). -/
structure State.QueuesFit (s : State) : Prop where
  requests_fit : s.requests.length ≤ 64
  requests_whole : ∀ m ∈ s.requests, m.length = 128
  responses_fit : s.responses.length + s.reserved ≤ 256
  reserved_iff : s.storeInitTag.isSome = true ↔ s.store.phase = .initializing
  reset_empty : s.inReset = true → s.requests = [] ∧ s.responses = []

/-! ### Invariants of the settings and the scanner (03, 09) -/

/-- The settings in their ranges (09, R189), every debounce counter below the debounce count (03, R45), and the next scan due
within the scan period (03, R45 and R48). -/
structure State.SettingsFit (s : State) : Prop where
  debounce : s.settings.debounce = 4 ∨ s.settings.debounce = 8 ∨ s.settings.debounce = 16 ∨ s.settings.debounce = 32
  threshold : 16 ≤ s.settings.threshold ∧ s.settings.threshold ≤ 4096
  interval : s.settings.interval ≤ 255
  present_counts : ∀ i : Slot, s.scanner.present[i].count < s.settings.debounce
  lever_counts : ∀ i : Slot, s.scanner.lever[i].count < s.settings.debounce
  scan_due : s.scanner.nextScan ≤ 1000

/-! ### Invariants of the lanes (04, 05) -/

/-- An outstanding burst (04, R78 and R81): one to eight frames, laid out with its check, resent at most three times. -/
structure Burst.Sound (b : Burst) : Prop where
  nonempty : 1 ≤ b.frames.length
  frames_fit : b.frames.length ≤ 8
  laid_out : b.bytes = layoutBurst b.seq b.frames
  resends_fit : b.resends ≤ 3

/-- A transmitter (04, R81): IDLE exactly with no burst outstanding, and the acknowledgement timer runs exactly in AWAITING,
at most 100 microseconds. -/
structure Transmitter.Sound (t : Transmitter) : Prop where
  idle_iff : t.phase = .idle ↔ t.outstanding = none
  timer_iff : t.ackTimer.isSome = true ↔ t.phase = .awaiting
  timer_fit : ∀ n ∈ t.ackTimer, n ≤ 100
  burst : ∀ b ∈ t.outstanding, b.Sound

/-- Every transmitter is sound, and a grant collects at most eight frames (06, R124, R129 and R137). -/
structure State.LinksSound (s : State) : Prop where
  lanes : ∀ i, (s.lane i).tx.Sound
  grant : ∀ g ∈ s.grant, g.frames.length ≤ 8

/-- The live figures of a lane within their ranges (05, R97, R101, R107, R109, R110 and R115). -/
structure Lane.LiveFits (l : Lane) : Prop where
  depth : l.live.queue.length ≤ 4096
  watermark : l.live.queue.length ≤ l.live.watermark ∧ l.live.watermark ≤ 4096
  debt : l.live.debt ≤ 8
  mismatches : l.live.mismatches ≤ 65535
  repairs_once : l.live.repairs.Nodup
  offset : l.live.repairOffset < 4096
  offset_empty : l.live.repairs = [] → l.live.repairOffset = 0
  stopped : l.state ≠ .live →
    l.live.queue = [] ∧ l.live.alarm = false ∧ l.live.auditTimer = none ∧ l.live.debt = 0 ∧ l.live.repairs = []

/-! ### Invariants of jobs (06, 07) -/

/-- The entry's fields within their ranges (06, R119 and R121; 07, R148 and R152). -/
structure Job.FieldsFit (j : Job) : Prop where
  budget : 1 ≤ j.policy.budget ∧ j.policy.budget ≤ 65535
  stall_limit : 1 ≤ j.policy.stallLimit ∧ j.policy.stallLimit ≤ 15
  pass_limit : 1 ≤ j.policy.passLimit ∧ j.policy.passLimit ≤ 63
  shift : j.policy.shift ≤ 6
  pass : j.pass ≤ j.policy.passLimit
  stall : j.stall ≤ j.policy.stallLimit
  freezes : j.freezeAttempts ≤ 3 ∧ (j.state.working = true → j.freezeAttempts ≤ 2)
  rounds : j.roundsFailed ≤ 3 ∧ (j.state.working = true → j.roundsFailed ≤ 2)
  freeze_timer : ∀ n ∈ j.freezeTimer, n ≤ 4 * j.policy.budget
  frozen_timer : j.freezeTimer.isSome = true ↔ j.state.frozen = true
  sample_timer : j.sampleTimer.isSome = true ↔ j.state.working = true ∧ j.state ≠ .wipe
  counts : j.arrivals ≤ 65535 ∧ j.sends ≤ 65535 ∧ j.sampled ≤ 65535
  estimates : j.ea ≤ 1048560 ∧ j.es ≤ 1048560
  extremes : j.fastest ≤ 65535 ∧ j.slowest ≤ 65535

/-- The dirty set (06, R132, R133, R142; 07, R162): ascending without duplicates; empty in WIPE, VERIFY and at an outcome;
below the sweep cursor in SWEEP; at or above the drain cursor in FREEZE. -/
structure Job.DirtyFits (j : Job) : Prop where
  ascending : j.dirty.Pairwise (· < ·)
  empty : j.state = .wipe ∨ j.state = .verify ∨ j.state.working = false → j.dirty = []
  swept : j.state = .sweep → ∀ row ∈ j.dirty, row < j.sweepCursor
  frozen : j.state = .freeze → ∀ row ∈ j.dirty, j.drainCursor ≤ row

/-- Every job entry is within its ranges and its dirty set as its state has it. -/
def State.JobsFit (s : State) : Prop := ∀ j job, s.job j = some job → job.FieldsFit ∧ job.DirtyFits

/-! ### Invariants across blocks -/

/-- A non-terminal job of the table targets the slot. -/
def State.TargetedBy (s : State) (i : Slot) (j : JobNo) : Prop :=
  ∃ job, s.job j = some job ∧ job.state.working = true ∧ job.slot = i

/-- The client that a lane's outstanding burst has in each lane state (04, R78 and R94). -/
def State.ClientFits (s : State) (i : Slot) : Client → Prop
  | .training => (s.lane i).state = .training
  | .job j => (s.lane i).state = .loading ∧ s.TargetedBy i j
  | .applyQueue => (s.lane i).state = .live

/-- The lane's view of its seating inputs in each state (03, R50): not both in EMPTY, PRESENT alone in EXTRACTING, both in
every other state. -/
def Lane.SeatingFits (l : Lane) : Prop :=
  match l.state with
  | .empty => ¬(l.present = true ∧ l.lever = true)
  | .extracting => l.present = true ∧ l.lever = false
  | _ => l.present = true ∧ l.lever = true

/-- When a lane has board facts (03, R65): never in EMPTY or IDENTIFYING, always in TRAINING, READY, LOADING and LIVE. -/
def Lane.FactsFit (l : Lane) : Prop :=
  match l.state with
  | .empty => l.facts = none
  | .identifying => l.facts = none
  | .extracting => True
  | .faulted => True
  | _ => l.facts.isSome = true

/-- How the blocks hang together: the FIFO holds exactly the IDENTIFYING lanes' slots (03, R60); a lane is LOADING exactly
when one non-terminal job targets it (06, R118); a grant is of a non-terminal job whose transmitter is IDLE (06, R124 and
R125); a burst is outstanding only for its state's client (04, R78 and R94); a lane's view of its inputs and its board facts are as
its state has them (03, R50 and R65); and only an INITIALIZED store has jobs and
LIVE lanes (06, R120). -/
structure State.BlocksAgree (s : State) : Prop where
  fifo_iff : ∀ i, i ∈ s.master.fifo ↔ (s.lane i).state = .identifying
  fifo_once : s.master.fifo.Nodup
  master_idle : s.master.phase = .idle ↔ s.master.fifo = []
  attempts : s.master.nacks ≤ 2 ∧ s.master.losses ≤ 7
  loading_iff : ∀ i, (s.lane i).state = .loading ↔ ∃ j, s.TargetedBy i j
  one_job : ∀ i j k, s.TargetedBy i j → s.TargetedBy i k → j = k
  granted : ∀ g ∈ s.grant, ∃ job, s.job g.job = some job ∧ job.state.working = true ∧ (s.lane job.slot).tx.outstanding = none
  client : ∀ i b, (s.lane i).tx.outstanding = some b → s.ClientFits i b.client
  seating : ∀ i, (s.lane i).SeatingFits
  facts : ∀ i, (s.lane i).FactsFit
  initialized : s.store.phase ≠ .initialized → (∀ j, s.job j = none) ∧ ∀ i, (s.lane i).state ≠ .live

/-- The arbiter leaves no eligible job waiting at a free port (06, R126). -/
def State.PortInUse (s : State) : Prop := s.grant = none → ∀ j, s.eligible j = false

/-- What a frame names lies in the store (04, R75). -/
def Frame.InStore (size : Nat) : Frame → Prop
  | .write row _ => row < size
  | .patch row _ => row < size
  | .clear row => row < size
  | .audit segment => segment < size / 4096
  | .verify segment => segment < size / 4096
  | .wipe => True
  | .align => True
  | .test => True

/-- What an apply entry names lies in the store (05, R98). -/
def ApplyEntry.InStore (size : Nat) (e : ApplyEntry) : Prop := e.frame.InStore size

/-- Everything that names a row or a segment lies in the store (04, R75; 05, R110; 06, R119 and R132; 07, R166). -/
structure State.NamesInStore (s : State) : Prop where
  entries : ∀ i, ∀ e ∈ (s.lane i).live.queue, e.InStore s.store.size
  repairs : ∀ i, ∀ segment ∈ (s.lane i).live.repairs, segment < s.store.size / 4096
  next_audit : ∀ i, (s.lane i).state = .live → (s.lane i).live.nextAudit < s.store.size / 4096
  bursts : ∀ i, ∀ b ∈ (s.lane i).tx.outstanding, ∀ f ∈ b.frames, f.InStore s.store.size
  grant : ∀ g ∈ s.grant, ∀ f ∈ g.frames, f.InStore s.store.size
  dirty : ∀ j job, s.job j = some job → ∀ row ∈ job.dirty, row < s.store.size
  cursors : ∀ j job, s.job j = some job → job.sweepCursor ≤ s.store.size ∧ job.drainCursor ≤ s.store.size
  progress : ∀ j job, s.job j = some job → job.progress ≤ 16
  verify : ∀ j job, s.job j = some job →
    job.verifySegment ≤ s.store.size / 4096 ∧ ∀ segment ∈ job.mismatched, segment < s.store.size / 4096

end Sys2Proof.Machine
end

