-- ==== Sys2Proof/Certificates/Slice0/Obligations.lean ====
section
/-! DEFINITION. The statements for the provers, block by block. A request's command is stated with the request at the head of
the queue (`State.Offers`) and its answer placed (`State.answered`); where the next state is given as an equation, every field
not named in it is unchanged. "log n" is notes/assumptions/n.md. -/

open Sys2Proof Sys2Proof.Machine

/-! ### Steps -/

/-- One step with a command at the front of the queue is that command's effect, with the queue's rest. -/
def Obligations.Step_RunsFrontCommand : Prop :=
  ∀ (c : Instr) (rest : List Instr) (s : State), s.pending = c :: rest → step s = exec c { s with pending := rest }

/-- The model's choice (log 1): a step on an empty queue takes one microsecond from every running timer, and with it goes the time in
which an abandoned attempt may still end (log 26); nothing else changes, and in reset nothing at all. -/
def Obligations.Step_IdleCountsTimersDown : Prop :=
  ∀ s : State, s.pending = [] →
    (s.inReset = true → step s = .next s) ∧
    (s.inReset = false →
      step s = .next
        { s with
          scanner := { s.scanner with nextScan := s.scanner.nextScan - 1 }
          master :=
            { s.master with
              phase := match s.master.phase with
                | .waiting n => .waiting (n - 1)
                | phase => phase
              abandoned := false }
          lanes := s.lanes.map fun l =>
            { l with
              alignTimer := l.alignTimer.map (· - 1), replyTimer := l.replyTimer.map (· - 1)
              tx := { l.tx with ackTimer := l.tx.ackTimer.map (· - 1) }
              live := { l.live with auditTimer := l.live.auditTimer.map (· - 1) } }
          jobs := s.jobs.map (Option.map fun j =>
            { j with freezeTimer := j.freezeTimer.map (· - 1), sampleTimer := j.sampleTimer.map (· - 1) }) })

/-- Every command in every state leaves a next state, and no command touches the queue of waiting commands. -/
def Obligations.Exec_CompletesAndKeepsQueue : Prop :=
  ∀ (c : Instr) (s : State), ∃ t, exec c s = .next t ∧ t.pending = s.pending

/-- In reset (08, R188; 09, R196) a command that is not a reset event and not a read changes nothing; a read of the
response port returns zero bytes (NONE), and the credit word reads 0. A request command waits, changing nothing, while
the response queue has no free entry, while the request queue is empty, and while the request at its head is of
another command's kind (08, R177; log 3, log 4). -/
def Obligations.Commands_WaitInResetAndForRoom : Prop :=
  (∀ s : State, s.inReset = true →
     (∀ c : Instr, c ≠ .powerOn → c ≠ .resetPinAssert → c ≠ .resetEnd → (∀ n, c ≠ .responsePortRead n) →
       exec c s = .next s) ∧
     (∀ n, exec (.responsePortRead n) s = .next { s with readData := List.replicate n 0 }) ∧
     (∀ n, s.creditWordRead n = List.replicate n 0)) ∧
  (∀ (c : Instr) (s : State), (∃ b, c.takesKind b = true) →
     (256 ≤ s.responses.length + s.reserved ∨ s.requests = [] ∨
       (∀ m ∈ s.requests.head?, c.takesKind (byteAt m 2) = false)) →
     exec c s = .next s)

/-! ### Resets -/

/-- POWER_ON and RESET_PIN_ASSERT set every block to its power-on values and hold the part; RESET_END ends the reset with the
settings at their defaults, the cause POWER_ON exactly when power was applied in it, and RESET_DONE alone on the response
queue with its interrupt. That the values stand from the assertion on is the model's choice (log 7), and so is that a RESET_END
outside a reset, where the part has no such event, changes nothing (log 3, log 7). -/
def Obligations.Reset_HoldsAndEnds : Prop :=
  ∀ s : State,
    exec .powerOn s = .next
      { State.reset with
        pending := s.pending, responses := [], powerOnReset := true, pinAsserted := s.pinAsserted
        settings := s.settings, resetCause := s.resetCause, interrupts := s.interrupts, readData := s.readData } ∧
    exec .resetPinAssert s = .next
      { State.reset with
        pending := s.pending, responses := [], powerOnReset := s.powerOnReset, pinAsserted := true
        settings := s.settings, resetCause := s.resetCause, interrupts := s.interrupts, readData := s.readData } ∧
    (s.inReset = false → exec .resetEnd s = .next s) ∧
    (s.inReset = true →
      exec .resetEnd s = .next
        { State.reset with
          pending := s.pending, resetCause := if s.powerOnReset then .powerOn else .pin
          responses :=
            [{ tag := 0, kind := .resetDone, requestKind := 0, status := .ok, overrun := false
               body := .resetDone (if s.powerOnReset then .powerOn else .pin) .uninitialized 0 }]
          interrupts := s.interrupts + 1, readData := s.readData })

/-- SOFT_RESET: every block at its reset values, the settings kept, an INITIALIZED store kept exactly, the cause SOFT, and
RESET_DONE alone on the response queue with the request's tag and kind and its interrupt. -/
def Obligations.SoftReset_KeepsStoreAndSettings : Prop :=
  ∀ (s : State) (m : List Byte) (rest : List (List Byte)), s.Offers 19 m rest →
    let store := if s.store.phase = .initialized then s.store else Store.reset
    exec .softReset s = .next
      { State.reset with
        pending := s.pending, settings := s.settings, resetCause := .soft, store
        responses :=
          [{ tag := BitVec.ofNat 16 (fieldAt m 0 2), kind := .resetDone, requestKind := 19, status := .ok, overrun := false
             body := .resetDone .soft store.phase store.size }]
        interrupts := s.interrupts + 1, readData := s.readData }

/-! ### The request port -/

/-- A write of 128 bytes to the request port with room joins the tail of the request queue and takes one credit; any other
write is discarded and raises the overrun flag; a write to another port word does nothing; the credit word reads the free
entries. -/
def Obligations.PortWrites_PlaceOrDiscard : Prop :=
  ∀ (s : State) (bytes : List Byte), s.inReset = false →
    (bytes.length = 128 → s.requests.length < 64 →
      exec (.requestPortWrite bytes) s = .next { s with requests := s.requests ++ [bytes] } ∧
      { s with requests := s.requests ++ [bytes] }.credit + 1 = s.credit) ∧
    (bytes.length ≠ 128 ∨ 64 ≤ s.requests.length →
      exec (.requestPortWrite bytes) s = .next { s with overrun := true }) ∧
    (∀ word, exec (.portWordWriteDiscarded word bytes) s = .next s) ∧
    (s.requests.length ≤ 64 →
      s.credit + s.requests.length = 64 ∧
      ∀ n, s.creditWordRead n = ([0, 0, 0, BitVec.ofNat 8 s.credit] ++ List.replicate n 0).take n)

/-- A read of the response port returns the head message's first bytes, or zero bytes when the queue is empty, with
zero bytes after the 128th; a read of 128 bytes removes the head message, and any other read removes nothing. An
outgoing message is 128 bytes: tag, kind, request kind, status and overrun flag, two zero bytes, then its body (10,
section 10.2). -/
def Obligations.ResponseRead_ReturnsHeadMessage : Prop :=
  (∀ (s : State) (n : Nat), s.inReset = false →
     (s.responses = [] → exec (.responsePortRead n) s = .next { s with readData := List.replicate n 0 }) ∧
     (∀ head rest, s.responses = head :: rest →
       exec (.responsePortRead n) s = .next
         { s with
           readData := (head.encode ++ List.replicate n 0).take n
           responses := if n = 128 then rest else head :: rest })) ∧
  (∀ m : OutMessage,
     m.encode.length = 128 ∧ ofBytes (m.encode.take 2) = m.tag.toNat ∧ natAt m.encode 2 = m.kind.code ∧
     byteAt m.encode 3 = m.requestKind ∧ natAt m.encode 4 = m.status.code ∧ byteAt m.encode 5 = boolByte m.overrun ∧
     byteAt m.encode 6 = 0 ∧ byteAt m.encode 7 = 0 ∧ m.body.encode.length ≤ 120 ∧
     m.encode.drop 8 = m.body.encode ++ List.replicate (120 - m.body.encode.length) 0)

/-- The interrupt (08, R182): one for each placing that takes the response queue from empty to not empty, and none
otherwise. A SOFT_RESET and the end of a reset place onto a queue they have emptied. -/
def Obligations.Interrupt_OnlyOntoEmptyQueue : Prop :=
  ∀ (c : Instr) (s t : State), exec c s = .next t →
    (s.responses = [] → t.responses ≠ [] → t.interrupts = s.interrupts + 1) ∧
    (t.responses = [] → t.interrupts = s.interrupts) ∧
    (s.responses ≠ [] → c ≠ .softReset → c ≠ .resetEnd → t.interrupts = s.interrupts)

/-- NOTICE_PLACE: with 16 free entries, the first pending mark at or above the search pointer has its notice placed at the
tail, is cleared, and the pointer moves past it; a job notice that carries an outcome frees the entry; without the room or
without a mark nothing happens. -/
def Obligations.NoticePlace_TakesFirstMark : Prop :=
  ∀ s : State, s.inReset = false →
    (s.responses.length + s.reserved + 16 > 256 → exec .noticePlace s = .next s) ∧
    ((∀ p, s.pendingMark p = false) → exec .noticePlace s = .next s) ∧
    (s.responses.length + s.reserved + 16 ≤ 256 → ∀ k : Nat, k < 20 →
      (∀ h < k, s.pendingMark (s.noticePointer + Fin.ofNat 20 h) = false) →
      (∀ i : Slot, s.noticePointer + Fin.ofNat 20 k = Fin.ofNat 20 i.val → (s.lane i).mark = true →
        exec .noticePlace s = .next
          { s.placed { tag := 0, kind := .laneNotice, requestKind := 0, status := .ok, overrun := false
                       body := .lane (s.laneSnapshot i) } with
            lanes := s.lanes.set i { s.lane i with mark := false }
            noticePointer := Fin.ofNat 20 (i.val + 1) }) ∧
      (∀ (j : JobNo) (job : Job), s.noticePointer + Fin.ofNat 20 k = Fin.ofNat 20 (16 + j.val) → s.job j = some job →
        job.mark = true →
        exec .noticePlace s = .next
          { s.placed { tag := 0, kind := .jobNotice, requestKind := 0, status := .ok, overrun := false
                       body := .job (job.snapshot j) } with
            jobs := s.jobs.set j (if job.state.working then some { job with mark := false } else none)
            noticePointer := Fin.ofNat 20 (16 + j.val + 1) }))

/-! ### Reading requests -/

/-- A key's lookup finds exactly the row whose live record has that key (01, R16 and R17), and FIND answers with it; without
one it answers NOT_FOUND, with a bad key BAD_RECORD, and with a store not INITIALIZED NOT_READY. Nothing else changes. -/
def Obligations.Find_AnswersByKey : Prop :=
  ∀ (s : State) (m : List Byte) (rest : List (List Byte)), s.Offers 4 m rest →
    (s.store.phase ≠ .initialized → s.Refuses .find m rest .notReady) ∧
    (s.store.phase = .initialized → requestKey m = none → s.Refuses .find m rest .badRecord) ∧
    (s.store.phase = .initialized → s.store.IndexExact → ∀ k, requestKey m = some k →
      ((∀ row r, s.store.row row = some r → r.key ≠ k) → s.Refuses .find m rest .notFound) ∧
      (∀ row r, s.store.row row = some r → r.key = k →
        exec .find s = .next (s.answered m rest .ok (.rowContent row (some r)))))

/-- READ_ROW answers with the row's record or the mark "free", and refuses a row at or beyond the store size;
STORE_STATS answers with the live count, the free count, the overflow length and the store size. Both refuse with
NOT_READY while the store is not INITIALIZED, and change nothing else. IDENTIFY answers in every state with the fixed
codes, the store state and size and the reset cause; a request of unknown kind is answered BAD_REQUEST. Nothing else
changes. -/
def Obligations.PlainReads_Answer : Prop :=
  (∀ (s : State) (m : List Byte) (rest : List (List Byte)),
     (s.Offers 5 m rest →
       (s.store.phase ≠ .initialized → s.Refuses .readRow m rest .notReady) ∧
       (s.store.phase = .initialized → s.store.size ≤ fieldAt m 8 4 → s.Refuses .readRow m rest .badRequest) ∧
       (s.store.phase = .initialized → fieldAt m 8 4 < s.store.size →
         exec .readRow s = .next
           (s.answered m rest .ok (.rowContent (fieldAt m 8 4) (s.store.row (fieldAt m 8 4)))))) ∧
     (s.Offers 7 m rest →
       (s.store.phase ≠ .initialized → s.Refuses .storeStats m rest .notReady) ∧
       (s.store.phase = .initialized → s.store.RowsExact →
         exec .storeStats s = .next
           (s.answered m rest .ok
             (.stats s.store.rows.length s.store.freeRows.length s.store.overflow.length s.store.size)) ∧
         s.store.rows.length + s.store.freeRows.length = s.store.size))) ∧
  (∀ (s : State) (m : List Byte) (rest : List (List Byte)),
     (s.Offers 18 m rest →
       exec .identify s = .next
         (s.answered m rest .ok (.identity s.store.phase s.store.size s.resetCause)) ∧
       (Payload.identity s.store.phase s.store.size s.resetCause).encode.take 5 = [0x5A, 0x47, 0x1C, 0x48, 3]) ∧
     (s.Offers (byteAt m 2) m rest → byteAt m 2 = 0 ∨ 20 ≤ natAt m 2 →
       s.Refuses .unknownRequestKind m rest .badRequest))

/-- LANE_STATUS answers in every lane state with the lane's snapshot, the attempt counts and the FIFO position while the slot
is in the FIFO, the job while the lane is LOADING; a slot above 15 is refused. Nothing else changes. -/
def Obligations.LaneStatus_Snapshot : Prop :=
  ∀ (s : State) (m : List Byte) (rest : List (List Byte)), s.Offers 8 m rest →
    (16 ≤ natAt m 8 → s.Refuses .laneStatus m rest .badRequest) ∧
    (∀ i : Slot, natAt m 8 = i.val → s.BlocksAgree →
      let l := s.lane i
      ∃ position nacks losses job,
        exec .laneStatus s = .next
          (s.answered m rest .ok
            (.lane
              { slot := i, state := l.state, cause := l.cause, present := l.present, lever := l.lever, facts := l.facts
                attempt := l.attempt, step := l.step, fifoPosition := position, nacks, losses, job
                phase := l.tx.phase, nextSeq := l.tx.nextSeq
                outstanding := l.tx.outstanding.map fun b =>
                  { seq := b.seq, frameCount := b.frames.length, resends := b.resends, client := b.client }
                depth := l.live.queue.length, watermark := l.live.watermark, alarm := l.live.alarm
                debt := l.live.debt, nextAudit := l.live.nextAudit, mismatches := l.live.mismatches
                repairLength := l.live.repairs.length
                cursor := l.live.repairs.head?.map fun segment => (segment, l.live.repairOffset) })) ∧
        (i ∉ s.master.fifo → position = 0) ∧ (i ∈ s.master.fifo → s.master.fifo[position - 1]? = some i ∧ 1 ≤ position) ∧
        (position = 1 → nacks = s.master.nacks ∧ losses = s.master.losses) ∧
        (position ≠ 1 → nacks = 0 ∧ losses = 0) ∧
        (l.state ≠ .loading → job = none) ∧ (l.state = .loading → ∃ j, job = some j ∧ s.TargetedBy i j))

/-- COPY_STATUS answers with the snapshot of the entry it selects: by job number that entry; by slot the non-terminal
job that targets it, else the lowest-numbered terminal one. An entry not found is refused with NO_JOB, a bad selector
or number with BAD_REQUEST. Nothing else changes. What a job snapshot holds (06, R146; 07, R155 and R173): the entry's
fields, its dirty count N, and the freeze time predicted at the snapshot. -/
def Obligations.CopyStatus_AnswersSnapshot : Prop :=
  (∀ (s : State) (m : List Byte) (rest : List (List Byte)), s.Offers 14 m rest →
     (byteAt m 8 ≠ 1 → byteAt m 8 ≠ 2 → s.Refuses .copyStatus m rest .badRequest) ∧
     (byteAt m 8 = 1 → 4 ≤ natAt m 9 → s.Refuses .copyStatus m rest .badRequest) ∧
     (byteAt m 8 = 2 → 16 ≤ natAt m 9 → s.Refuses .copyStatus m rest .badRequest) ∧
     (byteAt m 8 = 1 → ∀ j : JobNo, natAt m 9 = j.val →
       (s.job j = none → s.Refuses .copyStatus m rest .noJob) ∧
       (∀ job, s.job j = some job → exec .copyStatus s = .next (s.answered m rest .ok (.job (job.snapshot j))))) ∧
     (byteAt m 8 = 2 → ∀ i : Slot, natAt m 9 = i.val →
       ((∀ j job, s.job j = some job → job.slot ≠ i) → s.Refuses .copyStatus m rest .noJob) ∧
       (∀ j job, s.job j = some job → job.slot = i →
         (job.state.working = true ∧ (∀ k, s.TargetedBy i k → k = j)) ∨
           ((∀ k, ¬ s.TargetedBy i k) ∧ (∀ k < j, ∀ other, s.job k = some other → other.slot ≠ i)) →
         exec .copyStatus s = .next (s.answered m rest .ok (.job (job.snapshot j)))))) ∧
  (∀ (j : JobNo) (job : Job),
     job.snapshot j =
       { number := j, slot := job.slot, profile := job.profile, state := job.state, progress := job.progress
         sweepCursor := job.sweepCursor, drainCursor := job.drainCursor, dirtyCount := job.dirty.length
         pass := job.pass, previous := job.previous, stall := job.stall, freezeAttempts := job.freezeAttempts
         roundsFailed := job.roundsFailed, freezeTimer := job.freezeTimer, policy := job.policy
         arrivals := job.arrivals, sends := job.sends, sampled := job.sampled, ea := job.ea, es := job.es
         fastest := job.fastest, slowest := job.slowest
         predicted :=
           if job.dirty.length = 0 then 0
           else if job.es = 0 then 16777215
           else min 16777215 ((job.dirty.length * 16 * 1024 + job.es - 1) / job.es)
         lastEvaluation := job.lastEvaluation, verifySegment := job.verifySegment, answered := job.answered
         mismatchedLength := job.mismatched.length } ∧
     (job.snapshot j).encode.length = 73)

/-! ### Settings -/

/-- SET_SCAN: a READ reports the debounce count; a WRITE stores the count rounded up to 4, 8, 16 or 32, sets every
debounce counter to 0 and keeps the accepted levels; another action is refused. SET_LANE_ALARM: a READ reports; a
WRITE stores the threshold clamped to 16..4,096 and the mode, and touches no lane; another action, or a WRITE of
another mode code, is refused. SET_AUDIT: a READ reports; a WRITE stores the interval clamped to 255 and restarts
every LIVE lane's audit timer for one whole interval, or leaves it stopped at 0, so that an audit timer expiry that comes
together with the WRITE and is taken after it does not happen (R193; log 2); another action is refused. -/
def Obligations.Settings_ReadAndWrite : Prop :=
  (∀ (s : State) (m : List Byte) (rest : List (List Byte)), s.Offers 15 m rest →
     (byteAt m 8 ≠ 1 → byteAt m 8 ≠ 2 → s.Refuses .setScan m rest .badRequest) ∧
     (byteAt m 8 = 1 →
       exec .setScan s = .next (s.answered m rest .ok (.scanSetting false s.settings.debounce false))) ∧
     (byteAt m 8 = 2 →
       let count :=
         if fieldAt m 9 2 ≤ 4 then 4 else if fieldAt m 9 2 ≤ 8 then 8 else if fieldAt m 9 2 ≤ 16 then 16 else 32
       exec .setScan s = .next
         ({ s with
             settings := { s.settings with debounce := count }
             scanner :=
               { s.scanner with
                 present := s.scanner.present.map fun (x : Input) => { level := x.level, count := 0 }
                 lever := s.scanner.lever.map fun (x : Input) => { level := x.level, count := 0 } } }.answered m rest .ok
           (.scanSetting true count (decide (count ≠ fieldAt m 9 2)))))) ∧
  (∀ (s : State) (m : List Byte) (rest : List (List Byte)), s.Offers 16 m rest →
     (byteAt m 8 ≠ 1 → byteAt m 8 ≠ 2 → s.Refuses .setLaneAlarm m rest .badRequest) ∧
     (byteAt m 8 = 2 → byteAt m 11 ≠ 1 → byteAt m 11 ≠ 2 → s.Refuses .setLaneAlarm m rest .badRequest) ∧
     (byteAt m 8 = 1 →
       exec .setLaneAlarm s = .next
         (s.answered m rest .ok (.alarmSetting false s.settings.threshold s.settings.mode false))) ∧
     (∀ mode : AlarmMode, byteAt m 8 = 2 → natAt m 11 = mode.code →
       let threshold := if fieldAt m 9 2 < 16 then 16 else if 4096 < fieldAt m 9 2 then 4096 else fieldAt m 9 2
       exec .setLaneAlarm s = .next
         ({ s with settings := { s.settings with threshold, mode } }.answered m rest .ok
           (.alarmSetting true threshold mode (decide (threshold ≠ fieldAt m 9 2)))))) ∧
  (∀ (s : State) (m : List Byte) (rest : List (List Byte)), s.Offers 17 m rest →
     (byteAt m 8 ≠ 1 → byteAt m 8 ≠ 2 → s.Refuses .setAudit m rest .badRequest) ∧
     (byteAt m 8 = 1 →
       exec .setAudit s = .next (s.answered m rest .ok (.auditSetting false s.settings.interval false))) ∧
     (byteAt m 8 = 2 →
       let interval := if 255 < fieldAt m 9 2 then 255 else fieldAt m 9 2
       let written : State :=
         { s with
             settings := { s.settings with interval }
             lanes := s.lanes.map fun (l : Lane) =>
               if (l.state = LaneState.live) then
                 { l with
                   live := { l.live with auditTimer := if interval = 0 then none else some (interval * 10000) } }
               else l }.answered m rest .ok
           (.auditSetting true interval (decide (interval ≠ fieldAt m 9 2)))
       exec .setAudit s = .next written ∧ ∀ i, exec (.auditTimerExpiry i) written = .next written))

/-! ### The record store and table changes -/

/-- STORE_INIT of an UNINITIALIZED store starts the initialisation at the size rounded up, reserves a response entry and
answers nothing; otherwise it is answered ALREADY_INIT. The completion makes every row free with row 0 on top, empties the
index, sets every digest to 0 and places the reserved response. That a STORE_INIT_COMPLETE outside INITIALIZING, where the part has
no such event, changes nothing is the model's choice (log 3). -/
def Obligations.StoreInit_BeginsAndCompletes : Prop :=
  ∀ (s : State) (m : List Byte) (rest : List (List Byte)),
    (s.Offers 6 m rest → s.store.phase ≠ .uninitialized → s.Refuses .storeInit m rest .alreadyInit) ∧
    (s.Offers 6 m rest → s.store.phase = .uninitialized →
      ∃ store, exec .storeInit s = .next
          { s with requests := rest, store, storeInitTag := some (BitVec.ofNat 16 (fieldAt m 0 2)) } ∧
        store.phase = .initializing ∧ store.rows = [] ∧ store.freeRows = [] ∧ store.entries = [] ∧
        store.size =
          (if fieldAt m 8 4 ≤ 65536 then 65536 else if fieldAt m 8 4 ≤ 131072 then 131072
           else if fieldAt m 8 4 ≤ 262144 then 262144 else 524288)) ∧
    (∀ tag, s.inReset = false → s.store.phase = .initializing → s.storeInitTag = some tag →
      ∃ store, exec .storeInitComplete s = .next
          ({ s with store, storeInitTag := none }.placed
            { tag, kind := .response, requestKind := 6, status := .ok, overrun := false
              body := .storeSize s.store.size }) ∧
        store.phase = .initialized ∧ store.size = s.store.size ∧ store.rows = [] ∧
        store.freeRows = List.range s.store.size ∧ store.entries = [] ∧
        store.fullDigests = List.replicate (s.store.size / 4096) 0 ∧
        store.compactDigests = List.replicate (s.store.size / 4096) 0) ∧
    (s.store.phase ≠ .initializing → exec .storeInitComplete s = .next s)

/-- The admission checks of INSERT, UPDATE and RETIRE in their order: each refusal is answered with its status and changes
nothing else. -/
def Obligations.TableChange_RefusedInOrder : Prop :=
  ∀ (s : State) (m : List Byte) (rest : List (List Byte)) (c : Instr) (kind : Option Kind),
    (s.Offers 1 m rest ∧ c = .insert ∧ kind = (requestRecord m).map (·.key.kind)) ∨
      (s.Offers 2 m rest ∧ c = .update ∧ kind = (requestRecord m).map (·.key.kind)) ∨
      (s.Offers 3 m rest ∧ c = .retire ∧ kind = (requestKey m).map Key.kind) →
    (s.store.phase ≠ .initialized → s.Refuses c m rest .notReady) ∧
    (s.store.phase = .initialized → kind = none → s.Refuses c m rest .badRecord) ∧
    (∀ k, s.store.phase = .initialized → kind = some k →
      (s.FreezeOn k → s.Refuses c m rest .frozen) ∧
      (¬ s.FreezeOn k → s.QueueFullOn k → s.Refuses c m rest .backlog) ∧
      (¬ s.FreezeOn k → ¬ s.QueueFullOn k → ∀ key, requestKey m = some key →
        (c = .insert → s.store.lookup key ≠ none → s.Refuses c m rest .exists_) ∧
        (c = .insert → s.store.lookup key = none → s.store.freeRows = [] → s.Refuses c m rest .storeFull) ∧
        (c = .insert → s.store.lookup key = none → s.store.freeRows ≠ [] →
          8 ≤ s.store.bucketLoad (s.store.bucketOf key) → 256 ≤ s.store.overflow.length →
          s.Refuses c m rest .hashFull) ∧
        (c ≠ .insert → s.store.lookup key = none → s.Refuses c m rest .notFound)))

/-- An admitted INSERT takes the row on top of the stack, stores the canonical record there, indexes it, adds its digest
contributions, feeds the live lanes a WRITE, offers the row to the jobs and answers OK with the row. Every other row, key and
digest stays. -/
def Obligations.Insert_Admitted : Prop :=
  ∀ (s : State) (m : List Byte) (rest : List (List Byte)) (r : Record) (row : Nat) (stack : List Nat),
    s.Offers 1 m rest → s.store.phase = .initialized → requestRecord m = some r → ¬ s.FreezeOn r.key.kind →
    ¬ s.QueueFullOn r.key.kind → s.store.lookup r.key = none → s.store.freeRows = row :: stack →
    s.store.bucketLoad (s.store.bucketOf r.key) < 8 ∨ s.store.overflow.length < 256 →
    s.store.RowsExact → s.store.IndexExact → s.store.DigestsExact →
    ∃ store : Store,
      exec .insert s = .next
        ((s.admission store r.key.kind row fun p => some (.write row (r.encode p))).answered m rest .ok (.row row)) ∧
      store.phase = .initialized ∧ store.size = s.store.size ∧ store.freeRows = stack ∧
      store.row row = some r ∧ (∀ other, other ≠ row → store.row other = s.store.row other) ∧
      store.lookup r.key = some row ∧ (∀ k, k ≠ r.key → store.lookup k = s.store.lookup k) ∧
      store.overflow =
        (if s.store.bucketLoad (s.store.bucketOf r.key) < 8 then s.store.overflow
         else s.store.overflow ++ [{ key := r.key, row }]) ∧
      (∀ p segment,
        store.digest p segment =
          if segment = row / 4096 ∧ p.accepts r.key.kind = true then s.store.digest p segment ^^^ crc32 (r.encode p)
          else s.store.digest p segment)

/-- UPDATE of a key in the store: with an equal body OK_UNCHANGED and no other effect; else the body is replaced in the row, the
digests exchange the two contributions, the live lanes are fed by the changed groups, the row is offered to the jobs, and the
key index and the stack stay. -/
def Obligations.Update_ReplacesBody : Prop :=
  ∀ (s : State) (m : List Byte) (rest : List (List Byte)) (r old : Record) (row : Nat),
    s.Offers 2 m rest → s.store.phase = .initialized → requestRecord m = some r → ¬ s.FreezeOn r.key.kind →
    ¬ s.QueueFullOn r.key.kind → s.store.row row = some old → old.key = r.key →
    s.store.RowsExact → s.store.IndexExact → s.store.DigestsExact →
    (old.body = r.body → exec .update s = .next (s.answered m rest .okUnchanged (.row row))) ∧
    (old.body ≠ r.body →
      ∃ store : Store,
        exec .update s = .next
          ((s.admission store r.key.kind row fun p => updateEntry p row old r).answered m rest .ok (.row row)) ∧
        store.phase = .initialized ∧ store.size = s.store.size ∧ store.freeRows = s.store.freeRows ∧
        store.entries = s.store.entries ∧ (∀ k, store.lookup k = s.store.lookup k) ∧
        store.row row = some r ∧ (∀ other, other ≠ row → store.row other = s.store.row other) ∧
        (∀ p segment,
          store.digest p segment =
            if segment = row / 4096 ∧ p.accepts r.key.kind = true then
              s.store.digest p segment ^^^ crc32 (old.encode p) ^^^ crc32 (r.encode p)
            else s.store.digest p segment))

/-- RETIRE of a key in the store: the index entry goes, the oldest overflow entry of a freed way's bucket moves into it, the
digest contributions go, the row is freed and pushed on the stack, the live lanes are fed a CLEAR, the row is offered to the
jobs, and the answer names the row. Every other row, key and digest stays. -/
def Obligations.Retire_FreesRow : Prop :=
  ∀ (s : State) (m : List Byte) (rest : List (List Byte)) (k : Key) (old : Record) (row : Nat),
    s.Offers 3 m rest → s.store.phase = .initialized → requestKey m = some k → ¬ s.FreezeOn k.kind →
    ¬ s.QueueFullOn k.kind → s.store.row row = some old → old.key = k →
    s.store.RowsExact → s.store.IndexExact → s.store.DigestsExact →
    ∃ store : Store,
      exec .retire s = .next
        ((s.admission store k.kind row fun _ => some (.clear row)).answered m rest .ok (.row row)) ∧
      store.phase = .initialized ∧ store.size = s.store.size ∧ store.freeRows = row :: s.store.freeRows ∧
      store.row row = none ∧ (∀ other, other ≠ row → store.row other = s.store.row other) ∧
      store.lookup k = none ∧ (∀ other, other ≠ k → store.lookup other = s.store.lookup other) ∧
      (∃ gone, s.store.overflow.eraseP gone = store.overflow ∧
        ∀ e, gone e = true ↔
          (if k ∈ s.store.overflow.map IndexEntry.key then e.key = k
           else s.store.bucketOf e.key = s.store.bucketOf k)) ∧
      (∀ p segment,
        store.digest p segment =
          if segment = row / 4096 ∧ p.accepts k.kind = true then s.store.digest p segment ^^^ crc32 (old.encode p)
          else s.store.digest p segment)

/-- The apply entry of an UPDATE (02, R35 and R36): with c of the profile's g groups changed as a board of the profile holds
them, none for c = 0, a PATCH of the changed groups' new values for 2c at most g, else a WRITE. -/
def Obligations.UpdateEntry_ByChangedGroups : Prop :=
  ∀ (p : Profile) (row : Nat) (old new : Record),
    let a := old.body.inProfile p
    let b := new.body.inProfile p
    let changed :=
      [decide (a.action ≠ b.action), decide (a.hops ≠ b.hops), decide (a.counter ≠ b.counter)]
        ++ (if p = .full then [decide (a.cls ≠ b.cls)] else [])
    let c := changed.count true
    (c = 0 → updateEntry p row old new = none) ∧
    (0 < c → c * 2 ≤ changed.length →
      ∃ g, updateEntry p row old new = some (.patch row g) ∧
        g.action = (if a.action = b.action then none else some b.action) ∧
        g.hops = (if a.hops = b.hops then none else some b.hops) ∧
        g.counter = (if a.counter = b.counter then none else some b.counter) ∧
        g.cls = (if p = .full ∧ a.cls ≠ b.cls then some b.cls else none)) ∧
    (changed.length < c * 2 → updateEntry p row old new = some (.write row (new.encode p)))

/-- Narrowing (02, R38 to R40). Of the next-hop list four entries at most are kept, in list order, those of the highest stored
weights with ties to the earlier; each kept weight becomes floor((w + 8) / 17), or 1 for 0, and lies in 1..15; slot, port and
rewrite index pass. A counter index of 0..65,535 is kept, one above is absent, an absent one stays absent; the class override is
absent in every case; the action passes. The compact encoding of a record is laid out from the narrowed body behind the unchanged
key (10, R198). The changed groups of a compact lane are judged on the actions, the narrowed next-hop lists entry by entry, and the
narrowed counter indices. -/
def Obligations.Narrowing_TrimsAndScales : Prop :=
  (∀ b : Body,
     ∃ kept : List Nat,
       kept.Pairwise (· < ·) ∧ (∀ i ∈ kept, i < b.hops.length) ∧ kept.length = min 4 b.hops.length ∧
       (∀ i ∈ kept, ∀ j, j < b.hops.length → j ∉ kept →
         (b.hops[j]?.map NextHop.weight).getD 0 < (b.hops[i]?.map NextHop.weight).getD 0 ∨
           ((b.hops[j]?.map NextHop.weight) = (b.hops[i]?.map NextHop.weight) ∧ i < j)) ∧
       b.narrow.hops.map some = kept.map (fun i => b.hops[i]?.map fun h =>
         { slot := h.slot, port := h.port, rewrite := h.rewrite
           weight := if (h.weight + 8) / 17 = 0 then 1 else (h.weight + 8) / 17 }) ∧
       ((∀ h ∈ b.hops, h.weight ≤ 255) → ∀ h ∈ b.narrow.hops, 1 ≤ h.weight ∧ h.weight ≤ 15) ∧
       (b.counter = none → b.narrow.counter = none) ∧
       (∀ c, b.counter = some c → (c ≤ 65535 → b.narrow.counter = some c) ∧ (65535 < c → b.narrow.counter = none)) ∧
       b.narrow.cls = none ∧ b.narrow.action = b.action ∧
       let action : Byte :=
         match b.action with
         | .forward => 1
         | .drop => 2
         | .punt => 3
       let counter : List Byte :=
         match b.counter with
         | some c => if c ≤ 65535 then toBytes 3 c else [0xFF, 0xFF, 0xFF]
         | none => [0xFF, 0xFF, 0xFF]
       ∀ key : Key,
         ({ key, body := b } : Record).encode .compact =
           key.encode ++ action :: (encodeHops b.narrow.hops ++ counter)) ∧
  (∀ old new : Body,
     let g := changedGroups .compact old new
     (g.action.isSome = true ↔ old.action ≠ new.action) ∧ (g.hops.isSome = true ↔ old.narrow.hops ≠ new.narrow.hops) ∧
     (g.counter.isSome = true ↔ old.narrow.counter ≠ new.narrow.counter) ∧ g.cls = none)

/-- What the part takes in is valid and canonical (01, R2 to R6): address bits beyond the prefix length are cleared,
the others kept. The record field of a response, put into a request, is read back as the same record: for every valid
canonical record, whatever the header bytes before and the bytes after. -/
def Obligations.Record_CanonicalRoundTrip : Prop :=
  ((∀ (m : List Byte) (r : Record), requestRecord m = some r → r.Valid) ∧
   (∀ (w plen : Nat) (addr : BitVec w) (i : Nat), i < w →
     (clearBeyond plen addr).getMsbD i = (decide (i < plen) && addr.getMsbD i))) ∧
  (∀ (r : Record) (header tail : List Byte), r.Valid → header.length = 8 →
     requestRecord (header ++ r.field ++ tail) = some r ∧ requestKey (header ++ r.field ++ tail) = some r.key)

/-! ### Seating -/

/-- One scan (03, R45 and R46), when the scan period of 1 ms has run out: each input on its own takes its sample, a run that
reaches the debounce count moves the accepted level and delivers its event, the next period starts, and nothing but the scanner
changes. That a SCAN before its time changes nothing is the model's choice (log 2). -/
def Obligations.Scan_DebouncesEachInput : Prop :=
  ∀ (s : State) (present lever : BitVec 16), s.inReset = false →
   (s.scanner.nextScan ≠ 0 → exec (.scan present lever) s = .next s) ∧
   (s.scanner.nextScan = 0 →
    ∃ (c : Scanner) (events : List (Slot × SeatEvent)),
      exec (.scan present lever) s = .next { s with scanner := c } ∧
      c.delivered = s.scanner.delivered ++ events ∧ c.nextScan = 1000 ∧ events.Nodup ∧
      (∀ i : Slot,
        c.present[i] =
          (if present.getLsbD i.val = s.scanner.present[i].level then { level := s.scanner.present[i].level, count := 0 }
           else if s.settings.debounce ≤ s.scanner.present[i].count + 1 then
            { level := present.getLsbD i.val, count := 0 }
           else { level := s.scanner.present[i].level, count := s.scanner.present[i].count + 1 }) ∧
        c.lever[i] =
          (if lever.getLsbD i.val = s.scanner.lever[i].level then { level := s.scanner.lever[i].level, count := 0 }
           else if s.settings.debounce ≤ s.scanner.lever[i].count + 1 then { level := lever.getLsbD i.val, count := 0 }
           else { level := s.scanner.lever[i].level, count := s.scanner.lever[i].count + 1 }) ∧
        ((i, SeatEvent.presentRise) ∈ events ↔ s.scanner.present[i].level = false ∧ c.present[i].level = true) ∧
        ((i, SeatEvent.presentFall) ∈ events ↔ s.scanner.present[i].level = true ∧ c.present[i].level = false) ∧
        ((i, SeatEvent.leverClose) ∈ events ↔ s.scanner.lever[i].level = false ∧ c.lever[i].level = true) ∧
        ((i, SeatEvent.leverOpen) ∈ events ↔ s.scanner.lever[i].level = true ∧ c.lever[i].level = false)))

/-- PRESENT_RISE and LEVER_CLOSE (03, R46, R50, R51 and R60): the lane's view takes the new level; an EMPTY lane that now sees
both, and an EXTRACTING lane whose lever closes, enters IDENTIFYING and its slot joins the FIFO; nothing else changes. Two clauses
are the model's choice (log 3, log 5): an event whose level the lane already sees leaves the lane as it is, and in the cells that
R50 marks 'does not occur' the lane's view alone takes the new level. -/
def Obligations.SeatingArrival_Identifies : Prop :=
  ∀ (s : State) (i : Slot), s.inReset = false →
    let l := s.lane i
    let taken (e : SeatEvent) : State :=
      { s with scanner := { s.scanner with delivered := s.scanner.delivered.erase (i, e) } }
    (l.present = true → exec (.presentRise i) s = .next (taken .presentRise)) ∧
    (l.present = false → ¬(l.state = .empty ∧ l.lever = true) →
      exec (.presentRise i) s = .next
        { taken .presentRise with lanes := s.lanes.set i { l with present := true } }) ∧
    (l.present = false → l.state = .empty → l.lever = true →
      exec (.presentRise i) s = .next
        { taken .presentRise with
          lanes := s.lanes.set i ({ l with present := true }.cleared .identifying none)
          master := s.master.appended i }) ∧
    (l.lever = true → exec (.leverClose i) s = .next (taken .leverClose)) ∧
    (l.lever = false → ¬(l.state = .empty ∧ l.present = true) → l.state ≠ .extracting →
      exec (.leverClose i) s = .next
        { taken .leverClose with lanes := s.lanes.set i { l with lever := true } }) ∧
    (l.lever = false → (l.state = .empty ∧ l.present = true) ∨ l.state = .extracting →
      exec (.leverClose i) s = .next
        { taken .leverClose with
          lanes := s.lanes.set i ({ l with lever := true }.cleared .identifying none)
          master := s.master.appended i })

/-- PRESENT_FALL (03, R50, R53 and R66; 06, R140): EMPTY stays; EXTRACTING goes to EMPTY with its cause kept; every
other state goes to EMPTY with SURPRISE_REMOVAL, its work given up: the FIFO place of an IDENTIFYING lane, the job of
a LOADING lane. LEVER_OPEN (03, R50, R52 and R66; 06, R140): EMPTY stays; every other state goes to EXTRACTING with cause
EXTRACTION and its board facts kept, its work given up. An abandoned identification of the head slot takes its attempt or wait
with it, and the next slot is served; that an abandoned attempt's end may still come in the same microsecond, to be discarded, is
held as the model's log 26 says. Two clauses are the model's choice (log 3, log 5): an event whose level the lane already sees
changes nothing, and a LEVER_OPEN in EXTRACTING, which R50 marks 'does not occur', moves the lane's view alone. -/
def Obligations.SeatingDeparture_GivesUpWork : Prop :=
  (∀ (s : State) (i : Slot), s.inReset = false →
     let l := s.lane i
     let taken : State :=
       { s with scanner := { s.scanner with delivered := s.scanner.delivered.erase (i, .presentFall) } }
     let gone := { l with present := false }.cleared .empty (some .surpriseRemoval)
     let running := decide (s.master.phase = .attempt)
     (l.present = false → exec (.presentFall i) s = .next taken) ∧
     (l.present = true → l.state = .empty →
       exec (.presentFall i) s = .next { taken with lanes := s.lanes.set i { l with present := false } }) ∧
     (l.present = true → l.state = .extracting →
       exec (.presentFall i) s = .next
         { taken with lanes := s.lanes.set i ({ l with present := false }.cleared .empty l.cause) }) ∧
     (l.present = true → l.state = .training ∨ l.state = .ready ∨ l.state = .live ∨ l.state = .faulted →
       exec (.presentFall i) s = .next { taken with lanes := s.lanes.set i gone }) ∧
     (∀ rest, l.present = true → l.state = .identifying → s.master.fifo = i :: rest →
       exec (.presentFall i) s = .next
         { taken with lanes := s.lanes.set i gone, master := IdMaster.nextServed rest (s.master.abandoned || running) }) ∧
     (∀ head front back, l.present = true → l.state = .identifying → s.master.fifo = head :: (front ++ i :: back) →
       i ∉ head :: front →
       exec (.presentFall i) s = .next
         { taken with
           lanes := s.lanes.set i gone, master := { s.master with fifo := head :: (front ++ back) } }) ∧
     (∀ j job, l.present = true → l.state = .loading → s.TargetedBy i j → s.job j = some job →
       (∀ k, s.TargetedBy i k → k = j) →
       exec (.presentFall i) s = .next ({ taken with lanes := s.lanes.set i gone }.jobLost j job .targetLost))) ∧
  (∀ (s : State) (i : Slot), s.inReset = false →
     let l := s.lane i
     let taken : State :=
       { s with scanner := { s.scanner with delivered := s.scanner.delivered.erase (i, .leverOpen) } }
     let out := { l with lever := false }.moved .extracting (some .extraction)
     let running := decide (s.master.phase = .attempt)
     (l.lever = false → exec (.leverOpen i) s = .next taken) ∧
     (l.lever = true → l.state = .empty ∨ l.state = .extracting →
       exec (.leverOpen i) s = .next { taken with lanes := s.lanes.set i { l with lever := false } }) ∧
     (l.lever = true → l.state = .training ∨ l.state = .ready ∨ l.state = .live ∨ l.state = .faulted →
       exec (.leverOpen i) s = .next { taken with lanes := s.lanes.set i out }) ∧
     (∀ rest, l.lever = true → l.state = .identifying → s.master.fifo = i :: rest →
       exec (.leverOpen i) s = .next
         { taken with lanes := s.lanes.set i out, master := IdMaster.nextServed rest (s.master.abandoned || running) }) ∧
     (∀ head front back, l.lever = true → l.state = .identifying → s.master.fifo = head :: (front ++ i :: back) →
       i ∉ head :: front →
       exec (.leverOpen i) s = .next
         { taken with lanes := s.lanes.set i out, master := { s.master with fifo := head :: (front ++ back) } }) ∧
     (∀ j job, l.lever = true → l.state = .loading → s.TargetedBy i j → s.job j = some job →
       (∀ k, s.TargetedBy i k → k = j) →
       exec (.leverOpen i) s = .next ({ taken with lanes := s.lanes.set i out }.jobLost j job .targetLost)))

/-- The two orders in which a seated lane takes PRESENT-fall and LEVER-open (03, R54): both end EMPTY without board facts, with
cause SURPRISE_REMOVAL when PRESENT-fall comes first and EXTRACTION when LEVER-open does, and in both a job on the lane ends
FAILED with cause TARGET_LOST. -/
def Obligations.SeatingOrders_EndEmpty : Prop :=
  ∀ (s : State) (i : Slot), s.inReset = false → s.BlocksAgree → (s.lane i).state ≠ .empty →
    (s.lane i).state ≠ .extracting →
    ∃ a b t u : State,
      exec (.presentFall i) s = .next a ∧ exec (.leverOpen i) a = .next t ∧
      exec (.leverOpen i) s = .next b ∧ exec (.presentFall i) b = .next u ∧
      (t.lane i).state = .empty ∧ (u.lane i).state = .empty ∧ (t.lane i).facts = none ∧ (u.lane i).facts = none ∧
      (t.lane i).cause = some .surpriseRemoval ∧ (u.lane i).cause = some .extraction ∧
      (∀ j, s.TargetedBy i j →
        (∃ job, t.job j = some job ∧ job.state = .failed .targetLost) ∧
        (∃ job, u.job j = some job ∧ job.state = .failed .targetLost))

/-! ### Identification -/

/-- An attempt that completes on the head slot (03, R60, R64, R65 and R67): with a descriptor whose bytes sum to 0
modulo 256, of version 1, profile 1 or 2 and exponent 16..20, the lane records the board facts and enters TRAINING
attempt 1 with its ALIGN step; any other descriptor takes the lane to FAULTED with ID_INVALID. Either way the next
slot is served. Failed attempts (03, R62 and R63): the third not acknowledged or the eighth lost takes the lane to
FAULTED with ID_UNREADABLE and serves the next slot; an earlier one counts and starts the 1 ms wait, whose expiry
begins a new attempt. The two counts are kept apart. An outcome that comes together with the seating event which has abandoned its
attempt, and is taken after it, is discarded (R66), whatever slot is served by then: how the model knows it is log 26. That an
outcome without an attempt, and a wait's expiry without a wait or before its time, change nothing is the model's choice (log 2,
log 3). -/
def Obligations.Identification_EndsOrRetries : Prop :=
  (∀ (s : State) (i : Slot) (rest : List Slot) (d : Vector Byte 16), s.inReset = false → s.master.abandoned = false →
     s.master.phase = .attempt → s.master.fifo = i :: rest → (s.lane i).state = .identifying →
     let l := s.lane i
     let valid :=
       (d.toList.map BitVec.toNat).sum % 256 = 0 ∧ d[0] = 1 ∧ (d[2] = 1 ∨ d[2] = 2) ∧ 16 ≤ d[3].toNat ∧ d[3].toNat ≤ 20
     (valid →
       exec (.idAttemptComplete d) s = .next
         { s with
           lanes := s.lanes.set i
             ({ l with
                 state := .training, mark := true
                 facts := some
                   { boardClass := d[1], profile := if d[2] = 1 then .compact else .full, exponent := d[3].toNat
                     serial := #v[d[6], d[7], d[8], d[9], d[10], d[11], d[12], d[13]] } }.aligning 1)
           master := IdMaster.nextServed rest false }) ∧
     (¬ valid →
       exec (.idAttemptComplete d) s = .next
         { s with
           lanes := s.lanes.set i (l.moved .faulted (some .idInvalid)), master := IdMaster.nextServed rest false })) ∧
  (∀ (s : State) (i : Slot) (rest : List Slot), s.inReset = false → s.master.abandoned = false →
     s.master.fifo = i :: rest → (s.lane i).state = .identifying →
     let dead : State :=
       { s with
         lanes := s.lanes.set i ((s.lane i).moved .faulted (some .idUnreadable))
         master := IdMaster.nextServed rest false }
     (s.master.phase = .attempt → s.master.nacks < 2 →
       exec .idNotAcknowledged s = .next
         { s with master := { s.master with nacks := s.master.nacks + 1, phase := .waiting 1000 } }) ∧
     (s.master.phase = .attempt → s.master.nacks = 2 → exec .idNotAcknowledged s = .next dead) ∧
     (s.master.phase = .attempt → s.master.losses < 7 →
       exec .idArbitrationLost s = .next
         { s with master := { s.master with losses := s.master.losses + 1, phase := .waiting 1000 } }) ∧
     (s.master.phase = .attempt → s.master.losses = 7 → exec .idArbitrationLost s = .next dead)) ∧
  (∀ s : State, s.inReset = false →
     (s.master.phase = .waiting 0 →
       exec .idWaitExpiry s = .next { s with master := { s.master with phase := .attempt } }) ∧
     (s.master.phase ≠ .waiting 0 → exec .idWaitExpiry s = .next s)) ∧
  (∀ (s : State) (c : Instr), s.inReset = false →
     (∃ d, c = .idAttemptComplete d) ∨ c = .idNotAcknowledged ∨ c = .idArbitrationLost →
     (s.master.abandoned = true → exec c s = .next { s with master := { s.master with abandoned := false } }) ∧
     (s.master.abandoned = false → s.master.phase ≠ .attempt → exec c s = .next s))

/-! ### Training -/

/-- A passed training step (03, R67 to R69 and R71): a LOCKED in an ALIGN step begins the PATTERN step, its first TEST burst
handed over when the transmitter is IDLE; a PATTERN_RESULT of 0 or 1 after the 64th TEST burst takes the lane to READY
with the attempt kept. Any other LOCKED or PATTERN_RESULT is ignored. A failed training step (03, R67 to R69): the
ALIGN step timer or the PATTERN reply timer expires, or a PATTERN_RESULT counts two failures or more; attempts 1 and 2
are followed by the next attempt's ALIGN step, attempt 3 by FAULTED with TRAIN_FAIL and the board facts kept. The units (04, R77;
10, R203): a LOCKED is the code 2 and its check, a PATTERN_RESULT the code 3, a count of 0..64 and its check, and any other unit is
discarded and changes nothing, under whichever reply's row it arrives (log 17). That a PATTERN_RESULT counts only while the reply
timer runs is deduced (log 10). That an expiry whose timer is stopped, has time left or is of another step changes nothing is the
model's choice (log 2, log 3). -/
def Obligations.Training_StepsPassOrFail : Prop :=
  (∀ (s : State) (i : Slot) (reply : List Byte), s.inReset = false →
     let l := s.lane i
     (readReply reply = some .locked →
       (l.state = .training ∧ l.step = some .align →
         exec (.locked i reply) s = .next
           { s with
             lanes := s.lanes.set i
               { l with
                 step := some .pattern, alignTimer := none, replyTimer := none
                 testsTaken := if l.tx.phase = .idle then 1 else 0
                 tx := if l.tx.phase = .idle then l.tx.taken [.test] .training none else l.tx } }) ∧
       (¬(l.state = .training ∧ l.step = some .align) → exec (.locked i reply) s = .next s)) ∧
     (∀ failures, readReply reply = some (.pattern failures) →
       (l.state = .training ∧ l.step = some .pattern ∧ l.replyTimer.isSome = true ∧ failures ≤ 1 →
         exec (.patternResult i reply) s = .next
           { s with
             lanes := s.lanes.set i
               { l with
                 state := .ready, mark := true, step := none, alignTimer := none, replyTimer := none
                 tx := l.tx.cleared } }) ∧
       (¬(l.state = .training ∧ l.step = some .pattern ∧ l.replyTimer.isSome = true) →
         exec (.patternResult i reply) s = .next s)) ∧
     (readReply reply ≠ some .locked → exec (.locked i reply) s = .next s) ∧
     ((∀ failures, readReply reply ≠ some (.pattern failures)) → exec (.patternResult i reply) s = .next s)) ∧
  (∀ reply : List Byte,
     (readReply reply = some .locked ↔ reply = [2, burstCheck [2]]) ∧
     (∀ failures, readReply reply = some (.pattern failures) ↔
       failures ≤ 64 ∧ reply = [3, BitVec.ofNat 8 failures, burstCheck [3, BitVec.ofNat 8 failures]])) ∧
  (∀ (s : State) (i : Slot) (c : Instr) (reply : List Byte) (failures : Nat), s.inReset = false →
     let l := s.lane i
     l.state = .training →
     (l.step = some .align ∧ l.alignTimer = some 0 ∧ c = .alignStepTimeout i) ∨
       (l.step = some .pattern ∧ l.replyTimer = some 0 ∧ c = .patternReplyTimeout i) ∨
       (l.step = some .pattern ∧ l.replyTimer.isSome = true ∧ c = .patternResult i reply ∧
         readReply reply = some (.pattern failures) ∧ 2 ≤ failures) →
     (l.attempt < 3 → exec c s = .next { s with lanes := s.lanes.set i (l.aligning (l.attempt + 1)) }) ∧
     (l.attempt = 3 →
       exec c s = .next { s with lanes := s.lanes.set i (l.moved .faulted (some .trainFail)) })) ∧
  (∀ (s : State) (i : Slot),
     (¬((s.lane i).state = .training ∧ (s.lane i).step = some .align ∧ (s.lane i).alignTimer = some 0) →
       exec (.alignStepTimeout i) s = .next s) ∧
     (¬((s.lane i).state = .training ∧ (s.lane i).step = some .pattern ∧ (s.lane i).replyTimer = some 0) →
       exec (.patternReplyTimeout i) s = .next s))

/-! ### The lane link -/

/-- The end of a transmission (04, R83; 03, R68, R69 and R93): outside TRAINING the acknowledgement is awaited with the
100 microsecond timer; in TRAINING the burst is released and the step's next burst handed over, or after the 64th TEST burst the
10 ms reply timer starts. That in IDLE and AWAITING, where no transmission can end, nothing happens is the model's choice
(log 3), and so is what it makes of a training lane as no run leaves it, without a step or past its 64th TEST burst (log 19). -/
def Obligations.TransmissionComplete_AwaitsOrContinues : Prop :=
  ∀ (s : State) (i : Slot), s.inReset = false →
    let l := s.lane i
    (l.tx.phase ≠ .sending → exec (.transmissionComplete i) s = .next s) ∧
    (l.tx.phase = .sending → l.state ≠ .training →
      exec (.transmissionComplete i) s = .next
        { s with lanes := s.lanes.set i { l with tx := { l.tx with phase := .awaiting, ackTimer := some 100 } } }) ∧
    (l.tx.phase = .sending → l.state = .training → l.step = some .align →
      exec (.transmissionComplete i) s = .next
        { s with
          lanes := s.lanes.set i { l with tx := l.tx.taken (List.replicate 8 .align) .training none } }) ∧
    (l.tx.phase = .sending → l.state = .training → l.step = some .pattern → l.testsTaken < 64 →
      exec (.transmissionComplete i) s = .next
        { s with
          lanes := s.lanes.set i
            { l with tx := l.tx.taken [.test] .training none, testsTaken := l.testsTaken + 1 } }) ∧
    (l.tx.phase = .sending → l.state = .training → l.step = some .pattern → 64 ≤ l.testsTaken →
      exec (.transmissionComplete i) s = .next
        { s with lanes := s.lanes.set i { l with tx := l.tx.cleared, replyTimer := some 10000 } }) ∧
    (l.tx.phase = .sending → l.state = .training → l.step = none →
      exec (.transmissionComplete i) s = .next { s with lanes := s.lanes.set i { l with tx := l.tx.cleared } })

/-- What happens to an acknowledgement (04, R84, R85, R88, R91 and R92): ignored outside AWAITING and with another
sequence number; a matching OK with the digest it owes retires the burst, and an apply-queue burst without AUDIT, or
with an AUDIT whose digest equals the snapshot, changes nothing more, while a job's burst is reported to the job. An
audit that differs (05, R109 and R110): the burst is retired, the mismatch counted up to 65,535, the notice marked,
and the segment appended to the repair list with a repair step unless the list holds it. The unit (04, R77; 10, R203): the code 1,
a sequence number, status 0 for OK or 1 for CHECK_FAIL, a digest that the fourth byte says is present, and the check; any other
unit is discarded and changes nothing (log 17). That an ACK_TIMEOUT outside AWAITING, or with time left on its timer, changes
nothing is the model's choice (log 2, log 3). -/
def Obligations.BurstAck_RetiresAndCompares : Prop :=
  (∀ (s : State) (i : Slot) (reply : List Byte) (seq : Byte) (ok : Bool) (digest : Option Word32), s.inReset = false →
     readReply reply = some (.ack seq ok digest) →
     let l := s.lane i
     let retired := s.lanes.set i { l with tx := l.tx.cleared }
     (l.tx.phase ≠ .awaiting → exec (.burstAck i reply) s = .next s) ∧
     (∀ b, l.tx.phase = .awaiting → l.tx.outstanding = some b →
       (b.seq ≠ seq → exec (.burstAck i reply) s = .next s) ∧
       (b.seq = seq → ok = true → b.client = .applyQueue →
         ((∀ f ∈ b.frames.getLast?, f.asksDigest = false) →
           exec (.burstAck i reply) s = .next { s with lanes := retired }) ∧
         (∀ segment board, b.frames.getLast? = some (.audit segment) → digest = some board → b.snapshot = some board →
           exec (.burstAck i reply) s = .next { s with lanes := retired })) ∧
       (∀ j, b.seq = seq → ok = true → b.client = .job j →
         ((∀ f ∈ b.frames.getLast?, f.asksDigest = false) ∨ digest.isSome = true) →
         exec (.burstAck i reply) s = .next ({ s with lanes := retired }.reportRetired j b.frames digest).arbitrate))) ∧
  (∀ (s : State) (i : Slot) (reply : List Byte),
     ((∀ seq ok digest, readReply reply ≠ some (.ack seq ok digest)) → exec (.burstAck i reply) s = .next s) ∧
     ((s.lane i).tx.phase ≠ .awaiting ∨ (s.lane i).tx.ackTimer ≠ some 0 → exec (.ackTimeout i) s = .next s)) ∧
  (∀ (reply : List Byte) (seq : Byte) (ok : Bool) (digest : Option Word32),
     readReply reply = some (.ack seq ok digest) ↔
       ∃ present a b c d : Byte,
         let unit := [1, seq, if ok then 0 else 1, present, a, b, c, d]
         reply = unit ++ [burstCheck unit] ∧ digest = if present = 0 then none else some (a ++ b ++ c ++ d)) ∧
  (∀ (s : State) (i : Slot) (reply : List Byte) (board master : Word32) (segment : Nat) (b : Burst), s.inReset = false →
     (s.lane i).tx.phase = .awaiting → (s.lane i).tx.outstanding = some b → b.client = .applyQueue →
     b.frames.getLast? = some (.audit segment) → b.snapshot = some master → board ≠ master →
     readReply reply = some (.ack b.seq true (some board)) →
     let l := s.lane i
     let counted (repairs : List Nat) : Lane :=
       { l with
         tx := l.tx.cleared, mark := true
         live := { l.live with mismatches := min 65535 (l.live.mismatches + 1), repairs } }
     (segment ∈ l.live.repairs →
       exec (.burstAck i reply) s = .next { s with lanes := s.lanes.set i (counted l.live.repairs) }) ∧
     (segment ∉ l.live.repairs →
       exec (.burstAck i reply) s = .next
         { s with
           lanes := s.lanes.set i ((counted (l.live.repairs ++ [segment])).repairStep s.store s.settings) }))

/-- A failure of the outstanding burst (04, R85 and R86; 03, R56; 06, R141): its timer expires, or a matching CHECK_FAIL or an OK
without an owed digest comes. The first three failures send it again unchanged with the count one higher; the fourth takes a LIVE
lane to FAULTED with LINK_ERRORS, and a LOADING lane with its job FAILED with LANE_FAULT. -/
def Obligations.BurstFailure_ResendsThenFaults : Prop :=
  ∀ (s : State) (i : Slot) (c : Instr) (reply : List Byte) (ok : Bool) (digest : Option Word32) (b : Burst),
    s.inReset = false → (s.lane i).tx.phase = .awaiting → (s.lane i).tx.outstanding = some b →
    (c = .ackTimeout i ∧ (s.lane i).tx.ackTimer = some 0) ∨
      (c = .burstAck i reply ∧ readReply reply = some (.ack b.seq ok digest) ∧
        (ok = false ∨ (digest = none ∧ ∃ f, b.frames.getLast? = some f ∧ f.asksDigest = true))) →
    let l := s.lane i
    let dead := s.lanes.set i (l.moved .faulted (some .linkErrors))
    (b.resends < 3 →
      exec c s = .next
        { s with
          lanes := s.lanes.set i
            { l with
              tx :=
                { phase := .sending, outstanding := some { b with resends := b.resends + 1 }, ackTimer := none
                  nextSeq := l.tx.nextSeq } } }) ∧
    (b.resends = 3 → l.state = .live → exec c s = .next { s with lanes := dead }) ∧
    (∀ j job, b.resends = 3 → l.state = .loading → s.TargetedBy i j → s.job j = some job →
      (∀ k, s.TargetedBy i k → k = j) →
      exec c s = .next ({ s with lanes := dead }.jobLost j job .laneFault))

/-- Sequence numbers (04, R80 and R82): but for resets, a command moves a lane's next number only by taking one burst, which
carries the number it had, has not been resent, and is being sent. -/
def Obligations.SequenceNumbers_OnePerBurst : Prop :=
  ∀ (c : Instr) (s t : State) (i : Slot), exec c s = .next t → c ≠ .softReset → c ≠ .powerOn → c ≠ .resetPinAssert →
    c ≠ .resetEnd →
    (t.lane i).tx.nextSeq = (s.lane i).tx.nextSeq ∨
      ((t.lane i).tx.nextSeq = (s.lane i).tx.nextSeq + 1 ∧ (t.lane i).tx.phase = .sending ∧
        ∃ b, (t.lane i).tx.outstanding = some b ∧ b.seq = (s.lane i).tx.nextSeq ∧ b.resends = 0)

/-! ### Live lanes -/

/-- A fill (04, R90; 05, R100 and R104): from the head of a LIVE lane's queue, up to eight entries, ending after an AUDIT, go to
the IDLE transmitter as one burst, an AUDIT with its snapshot; in AUTO mode a raised alarm clears, with the notice marked, at half
the threshold; then a repair step follows. That a TRANSMITTER_FILL of a busy transmitter, from an empty queue or on a lane not
LIVE, which the part never sees, changes nothing is the model's choice (log 3). -/
def Obligations.Fill_TakesHeadEntries : Prop :=
  ∀ (s : State) (i : Slot), s.inReset = false →
    let l := s.lane i
    (l.state ≠ .live ∨ l.tx.phase ≠ .idle ∨ l.live.queue = [] → exec (.transmitterFill i) s = .next s) ∧
    (l.state = .live → l.tx.phase = .idle → l.live.queue ≠ [] →
      ∃ taken rest, l.live.queue = taken ++ rest ∧ 1 ≤ taken.length ∧ taken.length ≤ 8 ∧
        (∀ e ∈ taken.dropLast, e.frame.asksDigest = false) ∧
        (taken.length = 8 ∨ rest = [] ∨ ∃ segment d, taken.getLast? = some (.audit segment d)) ∧
        let clears := s.settings.mode = .auto ∧ l.live.alarm = true ∧ rest.length ≤ s.settings.threshold / 2
        let filled : Lane :=
          { l with
            tx := l.tx.taken (taken.map ApplyEntry.frame) .applyQueue
              (match taken.getLast? with
                | some (.audit _ d) => some d
                | _ => none)
            live := { l.live with queue := rest, alarm := l.live.alarm && !decide clears }
            mark := l.mark || decide clears }
        exec (.transmitterFill i) s = .next
          { s with lanes := s.lanes.set i (filled.repairStep s.store s.settings) } ∧
        (l.live.repairs = [] →
          exec (.transmitterFill i) s = .next { s with lanes := s.lanes.set i filled }))

/-- A repair step (05, R111 to R113): with room for n entries below 3,072, n being at most 8, it places n entries for the rows from
the cursor on, in order, each the row as the store holds it, or a CLEAR, and moves the cursor past them; at 3,072 it places
nothing. Past the last row of the head segment, at offset 4,095, the segment leaves the list, and the same step goes on at offset 0
of the next one; where none stands behind it the step ends there, the cursor is absent (the list empty, offset 0) and the lane's
notice is marked. -/
def Obligations.RepairStep_PlacesRows : Prop :=
  ∀ (store : Store) (set : Settings) (l : Lane) (segment : Nat) (others : List Nat),
    l.live.repairs = segment :: others → l.live.repairOffset < 4096 →
    let room := min 8 (3072 - l.live.queue.length)
    let left := 4096 - l.live.repairOffset
    let n := if others = [] then min left room else room
    let row (k : Nat) :=
      if k < left then 4096 * segment + l.live.repairOffset + k else 4096 * others.headD 0 + (k - left)
    let after := l.repairStep store set
    after.live.queue =
      l.live.queue ++ (List.range n).map (fun k =>
        if store.rowInProfile l.profile (row k) then
          .write (row k) (((store.row (row k)).map fun r => r.encode l.profile).getD [])
        else .clear (row k)) ∧
    (n < left → after.live.repairs = segment :: others ∧ after.live.repairOffset = l.live.repairOffset + n) ∧
    (left ≤ n → after.live.repairs = others ∧ after.live.repairOffset = n - left) ∧
    (after.live.cursor = none ↔ others = [] ∧ n = left) ∧
    after.mark = (l.mark || (after.live.alarm && !l.live.alarm) || decide (others = [] ∧ n = left)) ∧
    after.live.watermark = (if n = 0 then l.live.watermark else max l.live.watermark (l.live.queue.length + n)) ∧
    after.live.alarm = (l.live.alarm || decide (0 < n ∧ set.threshold < l.live.queue.length + n)) ∧
    after.tx = l.tx ∧ after.state = l.state ∧ after.facts = l.facts ∧ after.live.debt = l.live.debt ∧
    after.live.nextAudit = l.live.nextAudit ∧ after.live.mismatches = l.live.mismatches ∧
    after.live.auditTimer = l.live.auditTimer

/-- An audit timer expiry on a LIVE lane (05, R106 and R107): above depth 2,048 with debt below 8 one unit of debt and no entry;
else below 4,096 one AUDIT of the next segment with the master digest, and a second that pays a unit of debt while the depth
allows; at 4,096 nothing. The timer starts again for one interval. That an expiry named on another lane, with the timer stopped or
with time left on it (as a SET_AUDIT write leaves it, 09, R193), changes nothing is the model's choice (log 2, log 3). -/
def Obligations.AuditExpiry_PlacesOrDefers : Prop :=
  ∀ (s : State) (i : Slot), s.inReset = false →
    let l := s.lane i
    let depth := l.live.queue.length
    let timer := if s.settings.interval = 0 then none else some (s.settings.interval * 10000)
    let next (k : Nat) := (l.live.nextAudit + k) % (s.store.size / 4096)
    let entry (segment : Nat) : ApplyEntry := .audit segment (s.store.digest l.profile segment)
    let one := l.enqueued s.settings.threshold (entry l.live.nextAudit)
    let two := one.enqueued s.settings.threshold (entry (next 1))
    (l.state ≠ .live ∨ l.live.auditTimer ≠ some 0 → exec (.auditTimerExpiry i) s = .next s) ∧
    (l.state = .live → l.live.auditTimer = some 0 →
      (2048 < depth → l.live.debt < 8 →
        exec (.auditTimerExpiry i) s = .next
          { s with
            lanes := s.lanes.set i
              { l with live := { l.live with debt := l.live.debt + 1, auditTimer := timer } } }) ∧
      ((depth ≤ 2048 ∨ 8 ≤ l.live.debt) → depth < 4096 → (l.live.debt = 0 ∨ 2048 ≤ depth) →
        exec (.auditTimerExpiry i) s = .next
          { s with
            lanes := s.lanes.set i
              { one with live := { one.live with nextAudit := next 1, auditTimer := timer } } }) ∧
      (depth < 2048 → 0 < l.live.debt →
        exec (.auditTimerExpiry i) s = .next
          { s with
            lanes := s.lanes.set i
              { two with
                live :=
                  { two.live with
                    nextAudit := (next 1 + 1) % (s.store.size / 4096), debt := l.live.debt - 1, auditTimer := timer } } }) ∧
      (4096 ≤ depth → 8 ≤ l.live.debt →
        exec (.auditTimerExpiry i) s = .next
          { s with lanes := s.lanes.set i { l with live := { l.live with auditTimer := timer } } }))

/-- LANE_RELEASE and LANE_CLEAR_ALARM (03, R58; 05, R105): a LIVE lane is taken to READY with cause RELEASED and its
live state torn down, or has its alarm cleared and its watermark set to the depth; another lane is refused with
WRONG_STATE and a slot above 15 with BAD_REQUEST. LANE_RESET (03, R57): accepted in FAULTED, READY and LIVE, where the
lane gives up what it has in progress and enters IDENTIFYING when its board is seated and closed, else EMPTY without a
cause; refused elsewhere with WRONG_STATE, and above slot 15 with BAD_REQUEST. -/
def Obligations.LaneRequests_MoveLane : Prop :=
  (∀ (s : State) (m : List Byte) (rest : List (List Byte)),
     (16 ≤ natAt m 8 →
       (s.Offers 10 m rest → s.Refuses .laneRelease m rest .badRequest) ∧
       (s.Offers 11 m rest → s.Refuses .laneClearAlarm m rest .badRequest)) ∧
     (∀ i : Slot, natAt m 8 = i.val →
       let l := s.lane i
       (l.state ≠ .live →
         (s.Offers 10 m rest → s.Refuses .laneRelease m rest .wrongState) ∧
         (s.Offers 11 m rest → s.Refuses .laneClearAlarm m rest .wrongState)) ∧
       (l.state = .live →
         (s.Offers 10 m rest →
           exec .laneRelease s = .next
             ({ s with lanes := s.lanes.set i (l.moved .ready (some .released)) }.answered m rest .ok
               (.laneState i .ready))) ∧
         (s.Offers 11 m rest →
           exec .laneClearAlarm s = .next
             ({ s with
                 lanes := s.lanes.set i
                   { l with live := { l.live with alarm := false, watermark := l.live.queue.length } } }.answered m rest
               .ok (.laneDepth i l.live.queue.length l.live.queue.length)))))) ∧
  (∀ (s : State) (m : List Byte) (rest : List (List Byte)), s.Offers 9 m rest →
     (16 ≤ natAt m 8 → s.Refuses .laneReset m rest .badRequest) ∧
     (∀ i : Slot, natAt m 8 = i.val →
       let l := s.lane i
       let accepted := l.state = .faulted ∨ l.state = .ready ∨ l.state = .live
       (¬ accepted → s.Refuses .laneReset m rest .wrongState) ∧
       (accepted → l.present = true → l.lever = true →
         exec .laneReset s = .next
           ({ s with lanes := s.lanes.set i (l.cleared .identifying none), master := s.master.appended i }.answered m rest
             .ok (.laneState i .identifying))) ∧
       (accepted → l.present = false ∨ l.lever = false →
         exec .laneReset s = .next
           ({ s with lanes := s.lanes.set i (l.cleared .empty none) }.answered m rest .ok (.laneState i .empty)))))

/-! ### Copy jobs -/

/-- COPY_START (06, R120 to R122; 03, R55): the five checks in their order, and the acceptance: the lowest-numbered free entry
takes the job in WIPE with every field at its start and the policy brought into range, the lane enters LOADING with its cause
absent, and the arbiter chooses. -/
def Obligations.CopyStart_ChecksAndAccepts : Prop :=
  ∀ (s : State) (m : List Byte) (rest : List (List Byte)), s.Offers 12 m rest →
    let clamp (low high v : Nat) := if v < low then low else if high < v then high else v
    let known := (byteAt m 12 = 1 ∨ byteAt m 12 = 2) ∧ (byteAt m 14 = 0 ∨ byteAt m 14 = 1)
    let policy : Policy :=
      { budget := clamp 1 65535 (fieldAt m 9 2), stallLimit := clamp 1 15 (natAt m 11)
        stallAction := if byteAt m 12 = 1 then .force else .abandon
        passLimit := clamp 1 63 (natAt m 13), verify := decide (byteAt m 14 = 1), shift := clamp 0 6 (natAt m 15) }
    (16 ≤ natAt m 8 ∨ ¬ known → s.Refuses .copyStart m rest .badRequest) ∧
    (∀ i : Slot, natAt m 8 = i.val → known →
      (s.store.phase ≠ .initialized → s.Refuses .copyStart m rest .notReady) ∧
      (s.store.phase = .initialized → (s.lane i).state ≠ .ready → s.Refuses .copyStart m rest .wrongState) ∧
      (∀ facts, s.store.phase = .initialized → (s.lane i).state = .ready → (s.lane i).facts = some facts →
        (2 ^ facts.exponent < s.store.size → s.Refuses .copyStart m rest .targetTooSmall) ∧
        (s.store.size ≤ 2 ^ facts.exponent → (∀ j, s.job j ≠ none) → s.Refuses .copyStart m rest .noJobSlot) ∧
        (∀ j : JobNo, s.store.size ≤ 2 ^ facts.exponent → s.job j = none → (∀ k < j, s.job k ≠ none) →
          exec .copyStart s = .next
            ({ s with
                jobs := s.jobs.set j (some
                  { slot := i, profile := facts.profile, state := .wipe, sweepCursor := 0, drainCursor := 0, dirty := []
                    pass := 0, previous := none, stall := 0, freezeAttempts := 0, roundsFailed := 0, freezeTimer := none
                    progress := 0, policy, sampleTimer := none, arrivals := 0, sends := 0, sampled := 0, ea := 0
                    es := 0, fastest := 0, slowest := 65535, lastEvaluation := none, verifySegment := 0, answered := 0
                    mismatched := [], mark := true })
                lanes := s.lanes.set i { s.lane i with state := .loading, cause := none, mark := true } }.arbitrate.answered
              m rest .ok (.jobStarted j policy)))))

/-- COPY_ABORT (06, R142 and R143): the non-terminal job on the slot becomes ABORTED with its dirty set emptied and its timers
stopped, a grant of it ends, its LOADING lane goes to READY with the outstanding burst abandoned, and the arbiter chooses;
without such a job NO_JOB, and above slot 15 BAD_REQUEST. -/
def Obligations.CopyAbort_EndsJob : Prop :=
  ∀ (s : State) (m : List Byte) (rest : List (List Byte)), s.Offers 13 m rest →
    (16 ≤ natAt m 8 → s.Refuses .copyAbort m rest .badRequest) ∧
    (∀ i : Slot, natAt m 8 = i.val →
      ((∀ j, ¬ s.TargetedBy i j) → s.Refuses .copyAbort m rest .noJob) ∧
      (∀ j job, s.TargetedBy i j → s.job j = some job → (∀ k, s.TargetedBy i k → k = j) →
        (s.lane i).state = .loading →
        exec .copyAbort s = .next
          ({ s with
              jobs := s.jobs.set j (some (job.ended .aborted))
              grant := if s.granted j then none else s.grant
              lanes := s.lanes.set i ((s.lane i).moved .ready (s.lane i).cause) }.arbitrate.answered m rest .ok
            (.jobNumber j))))

/-- The reads of a grant. SWEEP_EXAMINATION (06, R129 and R131): one row at the sweep cursor, a WRITE frame when it is in
profile, the cursor and the progress moved, a raised progress marking the notice. DRAIN_ROW_TAKE (06, R137): the first row at or
above the drain cursor leaves the dirty set, framed WRITE when in profile and CLEAR otherwise, and the drain cursor moves past
it. That a grant which may read no further row, or whose job is in another state, is left as it is, since the part makes no such
read, is the model's choice (log 3), and so is that a drain grant may read on while a row stands that it may take, whenever that row
was added (log 25). -/
def Obligations.Grant_ReadsRows : Prop :=
  ∀ (s : State) (g : Grant) (job : Job), s.inReset = false → s.grant = some g → s.job g.job = some job →
    let write (row : Nat) : Frame := .write row (((s.store.row row).map fun r => r.encode job.profile).getD [])
    let progress := (job.sweepCursor + 1) * 16 / s.store.size
    let maySweep :=
      job.state = .sweep ∧ g.closed = false ∧ g.frames.length < 8 ∧ g.examined < 256 ∧ job.sweepCursor < s.store.size
    let mayDrain := (job.state = .drain ∨ job.state = .freeze) ∧ g.closed = false ∧ g.frames.length < 8
    (maySweep →
      exec .sweepExamination s = .next
        { s with
          jobs := s.jobs.set g.job (some
            { job with
              sweepCursor := job.sweepCursor + 1, progress, mark := job.mark || decide (job.progress < progress) })
          grant := some
            { g with
              examined := g.examined + 1
              frames := g.frames ++
                (if s.store.rowInProfile job.profile job.sweepCursor then [write job.sweepCursor] else []) } }) ∧
    (¬ maySweep → exec .sweepExamination s = .next s) ∧
    (∀ row, mayDrain → job.dirty.Pairwise (· < ·) → row ∈ job.dirty → job.drainCursor ≤ row →
      (∀ other ∈ job.dirty, job.drainCursor ≤ other → row ≤ other) →
      exec .drainRowTake s = .next
        { s with
          jobs := s.jobs.set g.job (some
            { job with dirty := job.dirty.filter (· != row), drainCursor := row + 1 })
          grant := some
            { g with
              frames := g.frames ++
                [if s.store.rowInProfile job.profile row then write row else .clear row] } }) ∧
    (¬ mayDrain ∨ (∀ row ∈ job.dirty, row < job.drainCursor) → exec .drainRowTake s = .next s)

/-- GRANT_COMPLETE (06, R124, R127, R129 and R137): a grant that may take no further row hands its frames to the target lane's
transmitter as one burst, or with none ends, which may end the job's work (06, R130 and R138; 07, R162); the port is free and the
arbiter chooses. That a GRANT_COMPLETE of a grant that still has rows to read changes nothing is the model's choice (log 3, log 25);
that a pass or freeze drain may end at a grant completed without a burst is deduced (log 14). -/
def Obligations.GrantComplete_HandsOver : Prop :=
  ∀ (s : State) (g : Grant) (job : Job), s.inReset = false → s.grant = some g → s.job g.job = some job →
    let goesOn :=
      g.closed = false ∧ g.frames.length < 8 ∧
        ((job.state = .sweep ∧ g.examined < 256 ∧ job.sweepCursor < s.store.size) ∨
          ((job.state = .drain ∨ job.state = .freeze) ∧ ∃ row ∈ job.dirty, job.drainCursor ≤ row))
    let l := s.lane job.slot
    (goesOn → exec .grantComplete s = .next s) ∧
    (¬ goesOn → g.frames ≠ [] →
      exec .grantComplete s = .next
        { s with
          grant := none
          lanes := s.lanes.set job.slot { l with tx := l.tx.taken g.frames (.job g.job) none } }.arbitrate) ∧
    (¬ goesOn → g.frames = [] →
      exec .grantComplete s = .next ({ s with grant := none }.endOfWork g.job).arbitrate)

/-- The timers of a job. FREEZE_TIMER_EXPIRY (07, R163 and R164; 06, R127): the first two return the job to DRAIN for a new pass,
the freeze lifted, the round discarded, its grant closed, and the pass ended at once if it has no work; the third fails the job
with FREEZE_EXHAUSTED and its lane goes to READY. SAMPLE_TIMER_EXPIRY (07, R151 to R153): the counts become samples, the seed or
the filter moves the estimates, and the next period starts. That an expiry named while its timer is stopped, or has time left,
changes nothing is the model's choice (log 2, log 3). -/
def Obligations.JobTimers_Expire : Prop :=
  ∀ (s : State) (j : JobNo) (job : Job), s.inReset = false → s.job j = some job →
    let lapsed : State :=
      { s with
        jobs := s.jobs.set j (some
          { job with
            state := .drain, drainCursor := 0, pass := min job.policy.passLimit (job.pass + 1)
            freezeAttempts := job.freezeAttempts + 1, freezeTimer := none, verifySegment := 0, answered := 0
            mismatched := [], mark := true })
        grant := s.grant.map fun g => if g.job = j then { g with closed := true } else g }
    let frozen := (job.state = .freeze ∨ job.state = .verify) ∧ job.freezeTimer = some 0
    let filter (e sample : Nat) : Nat :=
      if job.sampled = 0 then 16 * sample
      else if e ≤ 16 * sample then e + (16 * sample - e) / 2 ^ job.policy.shift
      else e - (e - 16 * sample) / 2 ^ job.policy.shift
    (frozen → job.freezeAttempts < 2 → exec (.freezeTimerExpiry j) s = .next (lapsed.endOfWork j).arbitrate) ∧
    (frozen → job.freezeAttempts = 2 → (s.lane job.slot).state = .loading →
      exec (.freezeTimerExpiry j) s = .next
        { s with
          jobs := s.jobs.set j (some ({ job with freezeAttempts := 3 }.ended (.failed .freezeExhausted)))
          grant := if s.granted j then none else s.grant
          lanes := s.lanes.set job.slot
            ((s.lane job.slot).moved .ready (s.lane job.slot).cause) }.arbitrate) ∧
    (¬ frozen → exec (.freezeTimerExpiry j) s = .next s) ∧
    (job.sampleTimer = some 0 →
      exec (.sampleTimerExpiry j) s = .next
        { s with
          jobs := s.jobs.set j (some
            { job with
              ea := filter job.ea job.arrivals, es := filter job.es job.sends
              fastest := if job.fastest < job.sends then job.sends else job.fastest
              slowest := if job.sends < job.slowest then job.sends else job.slowest
              sampled := min 65535 (job.sampled + 1), arrivals := 0, sends := 0, sampleTimer := some 1024
              mark := job.mark || decide (job.sampled = 0) }) }) ∧
    (job.sampleTimer ≠ some 0 → exec (.sampleTimerExpiry j) s = .next s)

/-- The predicted freeze time (07, R154). -/
def Obligations.PredictedTime_Formula : Prop :=
  ∀ n es : Nat,
    (n = 0 → predictedTime n es = 0) ∧
    (0 < n → es = 0 → predictedTime n es = 16777215) ∧
    (∀ t, 0 < n → 0 < es → n * 16 * 1024 ≤ t * es → (∀ u, n * 16 * 1024 ≤ u * es → t ≤ u) →
      predictedTime n es = if 16777215 < t then 16777215 else t)

/-- The end of the sweep or of a drain pass (06, R130 and R138; 07, R156 to R160 and R162): at a predicted time within the budget
the job freezes; else a drain pass counts its stall, and at the stall limit or the pass limit the stall action freezes or fails
it; else the next pass starts. A freeze with nothing to drain goes to VERIFY, or cuts over with verify OFF. -/
def Obligations.PassEnd_Evaluates : Prop :=
  ∀ (s : State) (j : JobNo) (job : Job), s.job j = some job → s.granted j = false →
    (s.lane job.slot).tx.outstanding = none → (s.lane job.slot).state = .loading →
    (job.state = .sweep ∧ job.sweepCursor = s.store.size) ∨
      (job.state = .drain ∧ ∀ row ∈ job.dirty, row < job.drainCursor) →
    let n := job.dirty.length
    let t := predictedTime n job.es
    let stall :=
      if job.state = .sweep then job.stall
      else match job.previous with
        | some p => if p ≤ n then min job.policy.stallLimit (job.stall + 1) else 0
        | none => 0
    let previous := if job.state = .sweep then job.previous else some n
    let atLimit := stall = job.policy.stallLimit ∨ job.pass = job.policy.passLimit
    let l := s.lane job.slot
    let set (k : Job) : State := { s with jobs := s.jobs.set j (some k) }
    let frozen (k : Job) (outcome : EvalOutcome) : Job :=
      { k with
        state := .freeze, drainCursor := 0, freezeTimer := some (job.freezeTimer.getD (4 * job.policy.budget)), mark := true
        lastEvaluation := some { outcome, dirtyCount := n, time := t } }
    let froze (k : Job) : State :=
      if n = 0 then
        if job.policy.verify then
          set { k with state := .verify, verifySegment := 0, answered := 0, mismatched := [] }
        else
          { set (k.ended .completed) with
            lanes := s.lanes.set job.slot
              { l with state := .live, mark := true, live := Live.start s.settings.interval } }
      else set k
    (t ≤ job.policy.budget → s.endOfWork j = froze (frozen job .freezePredicted)) ∧
    (job.policy.budget < t → atLimit → job.policy.stallAction = .force →
      s.endOfWork j = froze (frozen { job with stall, previous } .freezeForced)) ∧
    (job.policy.budget < t → atLimit → job.policy.stallAction = .abandon →
      s.endOfWork j =
        { set ({ job with
                  stall, previous
                  lastEvaluation := some { outcome := .abandoned, dirtyCount := n, time := t } }.ended
                (.failed .notConverging)) with
          lanes := s.lanes.set job.slot (l.moved .ready l.cause) }) ∧
    (job.policy.budget < t → ¬ atLimit →
      s.endOfWork j = set
        { job with
          stall, previous, state := .drain, drainCursor := 0, pass := job.pass + 1, mark := true
          lastEvaluation := some { outcome := .nextPass, dirtyCount := n, time := t } })

/-- The end of the freeze drain (07, R162): with the set empty and nothing in progress, VERIFY with verify ON, else the cut-over
(07, R171; 05, R114); and no end while the job has a grant, a burst or rows to send (06, R130 and R138). -/
def Obligations.EndOfWork_WaitsOrCutsOver : Prop :=
  ∀ (s : State) (j : JobNo) (job : Job), s.job j = some job →
    (s.granted j = true ∨ (s.lane job.slot).tx.outstanding.isSome = true ∨
      (job.state = .sweep ∧ job.sweepCursor < s.store.size) ∨
      (job.state = .drain ∧ ∃ row ∈ job.dirty, job.drainCursor ≤ row) ∨ (job.state = .freeze ∧ job.dirty ≠ []) →
      s.endOfWork j = s) ∧
    (s.granted j = false → (s.lane job.slot).tx.outstanding = none → job.state = .freeze → job.dirty = [] →
      (job.policy.verify = true →
        s.endOfWork j =
          { s with
            jobs := s.jobs.set j (some
              { job with state := .verify, verifySegment := 0, answered := 0, mismatched := [], mark := true }) }) ∧
      (job.policy.verify = false → (s.lane job.slot).state = .loading →
        s.endOfWork j =
          { s with
            jobs := s.jobs.set j (some (job.ended .completed))
            lanes := s.lanes.set job.slot
              { s.lane job.slot with
                state := .live, mark := true
                live :=
                  { queue := [], watermark := 0, alarm := false
                    auditTimer := if s.settings.interval = 0 then none else some (s.settings.interval * 10000)
                    nextAudit := 0, debt := 0, mismatches := 0, repairs := [], repairOffset := 0 } } }))

/-- A retired burst reported to its job (06, R128 and R139; 07, R149, R150 and R166 to R169): the WIPE burst starts the sweep and
the sample timer; WRITE and CLEAR frames are counted as sends and the work may end; a VERIFY answer is compared with the master's
digest, and the last one of a round cuts over, returns to FREEZE with every row of the mismatched segments, or at the third failed
round fails the job. A terminal job is told nothing. -/
def Obligations.BurstReport_MovesJob : Prop :=
  ∀ (s : State) (j : JobNo) (job : Job) (frames : List Frame) (digest : Option Word32), s.job j = some job →
    let set (k : Job) : State := { s with jobs := s.jobs.set j (some k) }
    let counted : Job :=
      { job with
        sends := min 65535
          (job.sends + (frames.filter fun f => match f with
            | .write _ _ => true
            | .clear _ => true
            | _ => false).length) }
    (job.state = .wipe → frames = [.wipe] →
      s.reportRetired j frames digest = set
        { job with
          state := .sweep, sweepCursor := 0, progress := 0, sampleTimer := some 1024, mark := true
          sends := min 65535 job.sends }) ∧
    (job.state = .sweep ∨ job.state = .drain ∨ job.state = .freeze →
      s.reportRetired j frames digest = (set counted).endOfWork j) ∧
    (∀ segment d, job.state = .verify → frames = [.verify segment] → digest = some d →
      let mismatched :=
        if d = s.store.digest job.profile segment then job.mismatched else dirtyInsert segment job.mismatched
      let answered := job.answered + 1
      let told : Job := { job with sends := min 65535 job.sends, answered, mismatched }
      (answered ≠ s.store.size / 4096 → s.reportRetired j frames digest = set told) ∧
      (answered = s.store.size / 4096 → (s.lane job.slot).state = .loading → s.granted j = false →
        (mismatched = [] →
          s.reportRetired j frames digest =
            { set (told.ended .completed) with
              lanes := s.lanes.set job.slot
                { s.lane job.slot with state := .live, mark := true, live := Live.start s.settings.interval } }) ∧
        (mismatched ≠ [] → 2 ≤ job.roundsFailed →
          s.reportRetired j frames digest =
            { set ({ told with roundsFailed := job.roundsFailed + 1 }.ended (.failed .verifyExhausted)) with
              lanes := s.lanes.set job.slot
                ((s.lane job.slot).moved .ready (s.lane job.slot).cause) }) ∧
        (mismatched ≠ [] → job.roundsFailed < 2 → job.freezeTimer.isSome = true → job.dirty.Pairwise (· < ·) →
          ∃ dirty : List Nat,
            s.reportRetired j frames digest = set
              { told with
                state := .freeze, roundsFailed := job.roundsFailed + 1, drainCursor := 0, verifySegment := 0
                answered := 0, mismatched := [], dirty, mark := true } ∧
            dirty.Pairwise (· < ·) ∧ ∀ row, row ∈ dirty ↔ row ∈ job.dirty ∨ row / 4096 ∈ mismatched))) ∧
    (job.state.working = false → s.reportRetired j frames digest = s)

/-- The arbiter (06, R124 to R126): with no grant in progress it grants the first eligible job of the freeze class from that
class's pointer, else of the load class from its own; the class's pointer moves past the job and the other stays; a WIPE or VERIFY
grant has its one frame at once. With a grant in progress or none eligible nothing happens. That a job in WIPE has its WIPE burst
still to be taken exactly while its transmitter is IDLE is deduced from R125 and R128 (log 23). -/
def Obligations.Arbiter_GrantsFirstEligible : Prop :=
  ∀ s : State,
    (∀ j, s.eligible j = true ↔
      s.granted j = false ∧ ∃ job, s.job j = some job ∧ (s.lane job.slot).tx.phase = .idle ∧
        (job.state = .wipe ∨ (job.state = .sweep ∧ job.sweepCursor < s.store.size) ∨
          ((job.state = .drain ∨ job.state = .freeze) ∧ ∃ row ∈ job.dirty, job.drainCursor ≤ row) ∨
          (job.state = .verify ∧ job.verifySegment < s.store.size / 4096))) ∧
    (s.grant.isSome = true → s.arbitrate = s) ∧
    ((∀ j, s.eligible j = false) → s.arbitrate = s) ∧
    (∀ (k : JobNo) (job : Job), s.grant = none →
      let granted (j : JobNo) (frames : List Frame) : Option Grant :=
        some { job := j, frames, examined := 0, closed := false }
      let f : JobNo := s.freezePointer + k
      let l : JobNo := s.loadPointer + k
      (s.job f = some job → job.state.frozen = true → s.eligible f = true →
        (∀ h < k, s.eligible (s.freezePointer + h) = false ∨ s.freezeClass (s.freezePointer + h) = false) →
        s.arbitrate =
          if job.state = .verify then
            { s with
              freezePointer := f + 1, grant := granted f [.verify job.verifySegment]
              jobs := s.jobs.set f (some { job with verifySegment := job.verifySegment + 1 }) }
          else { s with freezePointer := f + 1, grant := granted f [] }) ∧
      ((∀ j, s.eligible j = false ∨ s.freezeClass j = false) → s.job l = some job → s.eligible l = true →
        (∀ h < k, s.eligible (s.loadPointer + h) = false) →
        s.arbitrate =
          { s with
            loadPointer := l + 1, grant := granted l (if job.state = .wipe then [.wipe] else []) }))

/-! ### Rules of the whole part -/

/-- While a job holds a freeze, the master in its profile does not move (07, R160 and R161): whatever one command does, unless
the job leaves FREEZE and VERIFY in it, no row in the profile changes and no digest of the profile changes. -/
def Obligations.Freeze_HoldsMaster : Prop :=
  ∀ (c : Instr) (s t : State) (j : JobNo) (job after : Job), s.store.RowsExact → s.store.IndexExact →
    s.store.DigestsExact → s.store.phase = .initialized → exec c s = .next t → s.job j = some job →
    job.state.frozen = true → t.job j = some after → after.state.frozen = true →
    (∀ row r, job.profile.accepts r.key.kind = true → (t.store.row row = some r ↔ s.store.row row = some r)) ∧
    (∀ segment, t.store.digest job.profile segment = s.store.digest job.profile segment)

/-- A lane enters LIVE only at the cut-over of the job that targets it (05, R114; 07, R171): it was LOADING, its job is COMPLETED
in that command, its live state has its starting values, and its transmitter is IDLE. -/
def Obligations.Live_OnlyAtCutOver : Prop :=
  ∀ (c : Instr) (s t : State) (i : Slot), s.BlocksAgree → s.LinksSound → exec c s = .next t →
    (s.lane i).state ≠ .live → (t.lane i).state = .live →
    (s.lane i).state = .loading ∧ (t.lane i).tx.phase = .idle ∧
      (∃ j job, s.TargetedBy i j ∧ t.job j = some job ∧ job.slot = i ∧ job.state = .completed) ∧
      (t.lane i).live =
        { queue := [], watermark := 0, alarm := false
          auditTimer := if s.settings.interval = 0 then none else some (s.settings.interval * 10000)
          nextAudit := 0, debt := 0, mismatches := 0, repairs := [], repairOffset := 0 }

/-! ### Invariants that every step keeps -/

/-- The state right after reset meets every invariant stated below. -/
def Obligations.Reset_MeetsInvariants : Prop :=
  State.reset.store.RowsExact ∧ State.reset.store.IndexExact ∧ State.reset.store.DigestsExact ∧
    State.reset.QueuesFit ∧ State.reset.LinksSound ∧ (∀ i, (State.reset.lane i).LiveFits) ∧ State.reset.JobsFit ∧
    State.reset.BlocksAgree ∧ State.reset.PortInUse ∧ State.reset.NamesInStore ∧ State.reset.SettingsFit

/-- The row table and the free-row stack stay exact (01, R10 and R15). -/
def Obligations.Step_KeepsRowsAndStack : Prop :=
  ∀ s t : State, s.store.RowsExact → step s = .next t → t.store.RowsExact

/-- The key index stays exact (01, R16 and R19). -/
def Obligations.Step_KeepsKeyIndex : Prop :=
  ∀ s t : State, s.store.RowsExact → s.store.IndexExact → step s = .next t → t.store.IndexExact

/-- Every digest stays the XOR of its segment's contributions (01, R20). -/
def Obligations.Step_KeepsDigests : Prop :=
  ∀ s t : State, s.store.RowsExact → s.store.DigestsExact → step s = .next t → t.store.DigestsExact

/-- Two invariants of the request port's side, each kept on its own. The queues stay within their capacities (08, R175, R180 and
R181). Every setting stays in its range (09, R189), every debounce counter below the debounce count (03, R45), and the time to the
next scan within the scan period. -/
def Obligations.Step_KeepsQueuesAndSettings : Prop :=
  ∀ s t : State, step s = .next t → (s.QueuesFit → t.QueuesFit) ∧ (s.SettingsFit → t.SettingsFit)

/-- Every transmitter stays sound (04, R78, R79 and R81). -/
def Obligations.Step_KeepsTransmitters : Prop :=
  ∀ s t : State, s.LinksSound → step s = .next t → t.LinksSound

/-- The blocks go on agreeing (03, R50, R60 and R65; 04, R94; 06, R118 and R124). -/
def Obligations.Step_KeepsBlocksAgreeing : Prop :=
  ∀ s t : State, s.LinksSound → s.BlocksAgree → step s = .next t → t.BlocksAgree

/-- The live figures stay within their ranges, and only a LIVE lane has any work (05, R97, R101, R107, R109, R110 and R115). -/
def Obligations.Step_KeepsLiveFigures : Prop :=
  ∀ s t : State, s.BlocksAgree → (∀ i, (s.lane i).LiveFits) → step s = .next t → ∀ i, (t.lane i).LiveFits

/-- The jobs' fields and dirty sets stay as their rules have them (06, R119, R132 and R133; 07, R148 and R152). -/
def Obligations.Step_KeepsJobFields : Prop :=
  ∀ s t : State, s.JobsFit → step s = .next t → t.JobsFit

/-- No eligible job waits at a free port (06, R126). -/
def Obligations.Step_KeepsPortInUse : Prop :=
  ∀ s t : State, s.LinksSound → s.BlocksAgree → s.PortInUse → step s = .next t → t.PortInUse

/-- Whatever names a row or a segment names one of the store (04, R75; 05, R110; 06, R132; 07, R166). -/
def Obligations.Step_KeepsNamesInStore : Prop :=
  ∀ s t : State, s.store.RowsExact → s.BlocksAgree → (∀ i, (s.lane i).LiveFits) → s.NamesInStore → step s = .next t →
    t.NamesInStore
end

