-- ==== Sys2Proof/Laws/Memory.lean ====
section
/-! SUPPORT. The row table as a memory: a row reads what was last written to it, a write and a freeing leave every other row
alone, and both keep the table's canonical form (01, R10; log 12). -/

namespace Sys2Proof.Machine

/-! ### Reading -/

@[simp] theorem Memory.read_nil (row : Nat) : Memory.read [] row = none := rfl

theorem Memory.read_cons (c : Nat × Record) (t : RowTable) (row : Nat) :
    Memory.read (c :: t) row = if c.1 = row then some c.2 else Memory.read t row := by
  by_cases h : c.1 = row <;> simp [Memory.read, h]

/-- What a row reads stands in the table. -/
theorem Memory.mem_of_read {t : RowTable} {row : Nat} {r : Record} (h : Memory.read t row = some r) : (row, r) ∈ t := by
  induction t with
  | nil => simp at h
  | cons c t ih =>
    rw [Memory.read_cons] at h
    split at h
    · next e => cases h; cases e; exact List.mem_cons_self ..
    · exact List.mem_cons_of_mem _ (ih h)

/-- In a table in canonical form a row reads exactly what stands in the table. -/
theorem Memory.read_eq_some_iff {t : RowTable} (ht : Memory.wf t) (row : Nat) (r : Record) :
    Memory.read t row = some r ↔ (row, r) ∈ t := by
  refine ⟨Memory.mem_of_read, fun h => ?_⟩
  induction t with
  | nil => cases h
  | cons c t ih =>
    rw [Memory.read_cons]
    rcases List.mem_cons.1 h with e | e
    · simp [← e]
    · have := (List.pairwise_cons.1 ht).1 _ e
      rw [if_neg (by simp only at this; omega)]
      exact ih (List.pairwise_cons.1 ht).2 e

/-- A row that no entry names is free. -/
theorem Memory.read_eq_none_iff (t : RowTable) (row : Nat) : Memory.read t row = none ↔ ∀ c ∈ t, c.1 ≠ row := by
  simp [Memory.read]

/-! ### Writing -/

/-- A read after a write: the written row holds the record, every other row what it held. -/
theorem Memory.read_write (t : RowTable) (row k : Nat) (r : Record) :
    Memory.read (Memory.write t row r) k = if k = row then some r else Memory.read t k := by
  induction t with
  | nil => simp [Memory.write, Memory.read_cons, eq_comm]
  | cons c t ih =>
    unfold Memory.write
    split
    · by_cases e : k = row
      · simp [Memory.read_cons, e]
      · simp [Memory.read_cons, e, Ne.symm e]
    · split
      · next e1 e2 =>
        by_cases e : k = row
        · simp [Memory.read_cons, e]
        · simp [Memory.read_cons, e, Ne.symm e, ← e2]
      · next e1 e2 =>
        rw [Memory.read_cons, ih, Memory.read_cons]
        by_cases e : k = row
        · simp [e, Ne.symm e2]
        · simp [e]

/-- What a written table holds. -/
theorem Memory.mem_write {t : RowTable} {row : Nat} {r : Record} {c : Nat × Record} (h : c ∈ Memory.write t row r) :
    c = (row, r) ∨ c ∈ t := by
  induction t with
  | nil => simpa [Memory.write] using h
  | cons d t ih =>
    unfold Memory.write at h
    split at h
    · simpa using h
    · split at h
      · rcases List.mem_cons.1 h with e | e
        · exact .inl e
        · exact .inr (List.mem_cons_of_mem _ e)
      · rcases List.mem_cons.1 h with e | e
        · exact .inr (e ▸ List.mem_cons_self ..)
        · rcases ih e with e | e
          · exact .inl e
          · exact .inr (List.mem_cons_of_mem _ e)

/-- A write keeps the canonical form. -/
theorem Memory.wf_write {t : RowTable} (ht : Memory.wf t) (row : Nat) (r : Record) : Memory.wf (Memory.write t row r) := by
  induction t with
  | nil => simp [Memory.write]
  | cons d t ih =>
    have hd := List.pairwise_cons.1 ht
    unfold Memory.write
    split
    · next e =>
      refine List.pairwise_cons.2 ⟨fun c hc => ?_, ht⟩
      rcases List.mem_cons.1 hc with rfl | hc
      · exact e
      · exact Nat.lt_trans e (hd.1 c hc)
    · split
      · next e => exact List.pairwise_cons.2 ⟨fun c hc => by simpa [e] using hd.1 c hc, hd.2⟩
      · next e1 e2 =>
        refine List.pairwise_cons.2 ⟨fun c hc => ?_, ih hd.2⟩
        rcases Memory.mem_write hc with rfl | hc
        · simp only; omega
        · exact hd.1 c hc

/-! ### Freeing -/

/-- A read after a freeing: the freed row is free, every other row holds what it held. -/
theorem Memory.read_free (t : RowTable) (row k : Nat) :
    Memory.read (Memory.free t row) k = if k = row then none else Memory.read t k := by
  induction t with
  | nil => simp [Memory.free]
  | cons c t ih =>
    have step : Memory.free (c :: t) row = if c.1 = row then Memory.free t row else c :: Memory.free t row := by
      by_cases e : c.1 = row <;> simp [Memory.free, e]
    rw [step]
    split
    · next e =>
      rw [ih, Memory.read_cons]
      by_cases e' : k = row
      · simp [e']
      · have : ¬ c.1 = k := fun h => e' (h ▸ e)
        simp [e', this]
    · next e =>
      rw [Memory.read_cons, Memory.read_cons, ih]
      by_cases e' : k = row
      · simp [e', e]
      · simp [e']

/-- A freeing keeps the canonical form. -/
theorem Memory.wf_free {t : RowTable} (ht : Memory.wf t) (row : Nat) : Memory.wf (Memory.free t row) :=
  List.Pairwise.filter _ ht

/-- The table after reset is in canonical form. -/
theorem Memory.wf_reset : Memory.wf State.reset.store.rows := by decide

end Sys2Proof.Machine
end

