-- ==== Sys2Proof/Laws/Store.lean ====
section
/-! SUPPORT. The record store's operations (01, 02): for each what it leaves and what it changes, and that the admitted changes
keep the row table, the key index and the digests exact. -/

namespace Sys2Proof.Machine

/-! ### The fields each operation leaves -/

@[simp] theorem Store.writeRow_phase (s : Store) (row : Nat) (r : Record) : (s.writeRow row r).phase = s.phase := rfl
@[simp] theorem Store.writeRow_size (s : Store) (row : Nat) (r : Record) : (s.writeRow row r).size = s.size := rfl
@[simp] theorem Store.writeRow_freeRows (s : Store) (row : Nat) (r : Record) : (s.writeRow row r).freeRows = s.freeRows := rfl
@[simp] theorem Store.writeRow_ways (s : Store) (row : Nat) (r : Record) : (s.writeRow row r).ways = s.ways := rfl
@[simp] theorem Store.writeRow_overflow (s : Store) (row : Nat) (r : Record) : (s.writeRow row r).overflow = s.overflow := rfl
@[simp] theorem Store.writeRow_rows (s : Store) (row : Nat) (r : Record) :
    (s.writeRow row r).rows = Memory.write s.rows row r := rfl
@[simp] theorem Store.writeRow_fullDigests (s : Store) (row : Nat) (r : Record) :
    (s.writeRow row r).fullDigests = s.fullDigests := rfl
@[simp] theorem Store.writeRow_compactDigests (s : Store) (row : Nat) (r : Record) :
    (s.writeRow row r).compactDigests = s.compactDigests := rfl

@[simp] theorem Store.freeRow_phase (s : Store) (row : Nat) : (s.freeRow row).phase = s.phase := rfl
@[simp] theorem Store.freeRow_size (s : Store) (row : Nat) : (s.freeRow row).size = s.size := rfl
@[simp] theorem Store.freeRow_freeRows (s : Store) (row : Nat) : (s.freeRow row).freeRows = s.freeRows := rfl
@[simp] theorem Store.freeRow_ways (s : Store) (row : Nat) : (s.freeRow row).ways = s.ways := rfl
@[simp] theorem Store.freeRow_overflow (s : Store) (row : Nat) : (s.freeRow row).overflow = s.overflow := rfl
@[simp] theorem Store.freeRow_rows (s : Store) (row : Nat) : (s.freeRow row).rows = Memory.free s.rows row := rfl
@[simp] theorem Store.freeRow_fullDigests (s : Store) (row : Nat) : (s.freeRow row).fullDigests = s.fullDigests := rfl
@[simp] theorem Store.freeRow_compactDigests (s : Store) (row : Nat) :
    (s.freeRow row).compactDigests = s.compactDigests := rfl

@[simp] theorem Store.pushRow_phase (s : Store) (row : Nat) : (s.pushRow row).phase = s.phase := rfl
@[simp] theorem Store.pushRow_size (s : Store) (row : Nat) : (s.pushRow row).size = s.size := rfl
@[simp] theorem Store.pushRow_rows (s : Store) (row : Nat) : (s.pushRow row).rows = s.rows := rfl
@[simp] theorem Store.pushRow_ways (s : Store) (row : Nat) : (s.pushRow row).ways = s.ways := rfl
@[simp] theorem Store.pushRow_overflow (s : Store) (row : Nat) : (s.pushRow row).overflow = s.overflow := rfl
@[simp] theorem Store.pushRow_freeRows (s : Store) (row : Nat) : (s.pushRow row).freeRows = row :: s.freeRows := rfl
@[simp] theorem Store.pushRow_fullDigests (s : Store) (row : Nat) : (s.pushRow row).fullDigests = s.fullDigests := rfl
@[simp] theorem Store.pushRow_compactDigests (s : Store) (row : Nat) :
    (s.pushRow row).compactDigests = s.compactDigests := rfl

@[simp] theorem Store.xorRecord_phase (s : Store) (g : Nat) (r : Record) : (s.xorRecord g r).phase = s.phase := rfl
@[simp] theorem Store.xorRecord_size (s : Store) (g : Nat) (r : Record) : (s.xorRecord g r).size = s.size := rfl
@[simp] theorem Store.xorRecord_rows (s : Store) (g : Nat) (r : Record) : (s.xorRecord g r).rows = s.rows := rfl
@[simp] theorem Store.xorRecord_freeRows (s : Store) (g : Nat) (r : Record) : (s.xorRecord g r).freeRows = s.freeRows := rfl
@[simp] theorem Store.xorRecord_ways (s : Store) (g : Nat) (r : Record) : (s.xorRecord g r).ways = s.ways := rfl
@[simp] theorem Store.xorRecord_overflow (s : Store) (g : Nat) (r : Record) : (s.xorRecord g r).overflow = s.overflow := rfl

@[simp] theorem Store.popRow_phase (s : Store) : s.popRow.phase = s.phase := by unfold Store.popRow; split <;> rfl
@[simp] theorem Store.popRow_size (s : Store) : s.popRow.size = s.size := by unfold Store.popRow; split <;> rfl
@[simp] theorem Store.popRow_rows (s : Store) : s.popRow.rows = s.rows := by unfold Store.popRow; split <;> rfl
@[simp] theorem Store.popRow_ways (s : Store) : s.popRow.ways = s.ways := by unfold Store.popRow; split <;> rfl
@[simp] theorem Store.popRow_overflow (s : Store) : s.popRow.overflow = s.overflow := by
  unfold Store.popRow; split <;> rfl
@[simp] theorem Store.popRow_fullDigests (s : Store) : s.popRow.fullDigests = s.fullDigests := by
  unfold Store.popRow; split <;> rfl
@[simp] theorem Store.popRow_compactDigests (s : Store) : s.popRow.compactDigests = s.compactDigests := by
  unfold Store.popRow; split <;> rfl

@[simp] theorem Store.placeEntry_phase (s : Store) (e : IndexEntry) : (s.placeEntry e).phase = s.phase := by
  unfold Store.placeEntry; split <;> rfl
@[simp] theorem Store.placeEntry_size (s : Store) (e : IndexEntry) : (s.placeEntry e).size = s.size := by
  unfold Store.placeEntry; split <;> rfl
@[simp] theorem Store.placeEntry_rows (s : Store) (e : IndexEntry) : (s.placeEntry e).rows = s.rows := by
  unfold Store.placeEntry; split <;> rfl
@[simp] theorem Store.placeEntry_freeRows (s : Store) (e : IndexEntry) : (s.placeEntry e).freeRows = s.freeRows := by
  unfold Store.placeEntry; split <;> rfl
@[simp] theorem Store.placeEntry_fullDigests (s : Store) (e : IndexEntry) :
    (s.placeEntry e).fullDigests = s.fullDigests := by
  unfold Store.placeEntry; split <;> rfl
@[simp] theorem Store.placeEntry_compactDigests (s : Store) (e : IndexEntry) :
    (s.placeEntry e).compactDigests = s.compactDigests := by
  unfold Store.placeEntry; split <;> rfl

/-- Removing an entry touches the key index only. -/
theorem Store.removeEntry_frame (s : Store) (k : Key) :
    ∃ ways overflow, s.removeEntry k = { s with ways, overflow } := by
  unfold Store.removeEntry
  simp only []
  split
  · split <;> exact ⟨_, _, rfl⟩
  · exact ⟨_, _, rfl⟩

@[simp] theorem Store.removeEntry_phase (s : Store) (k : Key) : (s.removeEntry k).phase = s.phase := by
  obtain ⟨_, _, e⟩ := s.removeEntry_frame k; rw [e]
@[simp] theorem Store.removeEntry_size (s : Store) (k : Key) : (s.removeEntry k).size = s.size := by
  obtain ⟨_, _, e⟩ := s.removeEntry_frame k; rw [e]
@[simp] theorem Store.removeEntry_rows (s : Store) (k : Key) : (s.removeEntry k).rows = s.rows := by
  obtain ⟨_, _, e⟩ := s.removeEntry_frame k; rw [e]
@[simp] theorem Store.removeEntry_freeRows (s : Store) (k : Key) : (s.removeEntry k).freeRows = s.freeRows := by
  obtain ⟨_, _, e⟩ := s.removeEntry_frame k; rw [e]; rfl
@[simp] theorem Store.removeEntry_fullDigests (s : Store) (k : Key) : (s.removeEntry k).fullDigests = s.fullDigests := by
  obtain ⟨_, _, e⟩ := s.removeEntry_frame k; rw [e]
@[simp] theorem Store.removeEntry_compactDigests (s : Store) (k : Key) :
    (s.removeEntry k).compactDigests = s.compactDigests := by
  obtain ⟨_, _, e⟩ := s.removeEntry_frame k; rw [e]

/-! ### The free-row stack -/

/-- The row on top of the stack and the stack without it. -/
theorem Store.freeRows_of_topRow {s : Store} {row : Nat} (h : s.topRow = some row) :
    s.freeRows = row :: s.popRow.freeRows := by
  unfold Store.topRow at h
  unfold Store.popRow Store.freeRows
  split at h
  · next e => cases h; simp [e]
  · next e =>
    split at h
    · next lt =>
      cases h
      have : s.size - s.fresh = (s.size - (s.fresh + 1)) + 1 := by omega
      simp [e, this, List.range'_succ]
    · cases h

/-- The row on top of the stack is its head. -/
theorem Store.topRow_eq_head (s : Store) : s.topRow = s.freeRows.head? := by
  rcases h : s.topRow with _ | row
  · unfold Store.topRow at h
    split at h
    · cases h
    · next e =>
      split at h
      · cases h
      · next lt =>
        have : s.size - s.fresh = 0 := by omega
        simp [Store.freeRows, e, this]
  · rw [Store.freeRows_of_topRow h]; rfl

/-- The free count is the stack's length (01, R15). -/
theorem Store.freeCount_eq_length (s : Store) : s.freeCount = s.freeRows.length := by
  simp [Store.freeCount, Store.freeRows]

/-! ### The key index -/

/-- Entries with distinct keys are determined by their keys. -/
theorem IndexEntry.eq_of_key {l : List IndexEntry} (h : (l.map IndexEntry.key).Nodup) {a b : IndexEntry} (ha : a ∈ l)
    (hb : b ∈ l) (e : a.key = b.key) : a = b :=
  List.inj_on_of_nodup_map h ha hb e

/-- A lookup finds exactly the row that the key's entry names (01, R17). -/
theorem Store.lookup_eq_some_iff {s : Store} (h : s.IndexExact) (k : Key) (row : Nat) :
    s.lookup k = some row ↔ ({ key := k, row } : IndexEntry) ∈ s.entries := by
  unfold Store.lookup
  split
  · next w hw =>
    have hm := List.mem_of_find?_eq_some hw
    have hk : w.entry.key = k := by
      have := List.find?_some hw
      simp [Way.holds] at this
      exact this.2
    have he : w.entry ∈ s.entries := List.mem_append_left _ (List.mem_map_of_mem hm)
    constructor
    · intro e; cases e; subst hk; exact he
    · intro e
      have := IndexEntry.eq_of_key h.keys_once he e hk
      rw [this]
  · next hw =>
    have none_in_ways : ∀ w ∈ s.ways, w.entry.key ≠ k := by
      intro w hm e
      have := List.find?_eq_none.1 hw w hm
      simp [Way.holds, e] at this
      exact this ((h.way_bucket w hm).trans (by rw [e]))
    simp only [Option.map_eq_some_iff]
    constructor
    · rintro ⟨e, he, rfl⟩
      have hk : e.key = k := by simpa using List.find?_some he
      exact List.mem_append_right _ (by cases e; simp only at hk; subst hk; exact List.mem_of_find?_eq_some he)
    · intro e
      rcases List.mem_append.1 e with e | e
      · obtain ⟨w, hm, hw'⟩ := List.mem_map.1 e
        exact absurd (by rw [hw']) (none_in_ways w hm)
      · obtain ⟨x, hx⟩ := Option.isSome_iff_exists.1
          (List.find?_isSome.2 ⟨_, e, (by simp : (k == k) = true)⟩ : (s.overflow.find? fun e => e.key == k).isSome)
        refine ⟨x, hx, ?_⟩
        have hk : x.key = k := by simpa using List.find?_some hx
        have := IndexEntry.eq_of_key h.keys_once (List.mem_append_right _ (List.mem_of_find?_eq_some hx))
          (List.mem_append_right _ e) hk
        rw [this]

/-- A lookup finds exactly the row of the live record with the key (01, R16). -/
theorem Store.lookup_eq_some_row {s : Store} (h : s.IndexExact) (k : Key) (row : Nat) :
    s.lookup k = some row ↔ ∃ r, s.row row = some r ∧ r.key = k :=
  (Store.lookup_eq_some_iff h k row).trans (h.entry_iff k row)

/-- A lookup finds nothing exactly when no live record has the key. -/
theorem Store.lookup_eq_none {s : Store} (h : s.IndexExact) (k : Key) :
    s.lookup k = none ↔ ∀ row r, s.row row = some r → r.key ≠ k := by
  constructor
  · intro e row r hr hk
    have := (Store.lookup_eq_some_row h k row).2 ⟨r, hr, hk⟩
    rw [e] at this; cases this
  · intro e
    rcases hl : s.lookup k with _ | row
    · rfl
    · obtain ⟨r, hr, hk⟩ := (Store.lookup_eq_some_row h k row).1 hl
      exact absurd hk (e row r hr)

/-- Placing adds one entry. -/
theorem Store.placeEntry_entries (s : Store) (e : IndexEntry) : (s.placeEntry e).entries.Perm (e :: s.entries) := by
  unfold Store.placeEntry Store.entries
  split
  · simp
  · rw [← List.append_assoc]
    exact (List.perm_append_comm).trans (by simp)

/-- The first element that `eraseP` removes and the rest make up the list. -/
theorem perm_cons_eraseP {α : Type} {p : α → Bool} {l : List α} {a : α} (h : l.find? p = some a) :
    l.Perm (a :: l.eraseP p) := by
  induction l with
  | nil => cases h
  | cons b l ih =>
    rw [List.find?_cons] at h
    split at h
    · next e => cases h; simp [e]
    · next e =>
      rw [List.eraseP_cons, e]
      exact ((ih h).cons b).trans (List.Perm.swap a b _)

/-- Removing takes away the key's entry and no other (01, R19). -/
theorem Store.removeEntry_entries {s : Store} (h : s.IndexExact) {k : Key} {row : Nat}
    (hk : s.lookup k = some row) :
    s.entries.Perm ({ key := k, row } :: (s.removeEntry k).entries) := by
  have hin := (Store.lookup_eq_some_iff h k row).1 hk
  unfold Store.removeEntry
  simp only []
  split
  · next hany =>
    obtain ⟨w, hw⟩ := Option.isSome_iff_exists.1 (List.find?_isSome.2 (List.any_eq_true.1 hany))
    have hkey : w.entry.key = k := by
      have := List.find?_some hw; simp [Way.holds] at this; exact this.2
    have hwe : w.entry = { key := k, row } :=
      IndexEntry.eq_of_key h.keys_once
        (List.mem_append_left _ (List.mem_map_of_mem (List.mem_of_find?_eq_some hw))) hin hkey
    have pw := perm_cons_eraseP hw
    have pe : s.entries.Perm
        ({ key := k, row } :: ((s.ways.eraseP fun w => w.holds (s.bucketOf k) k).map Way.entry ++ s.overflow)) := by
      have := (pw.map Way.entry).append_right s.overflow
      rw [List.map_cons, hwe] at this
      exact this
    split
    · next e he =>
      refine pe.trans (List.Perm.cons _ ?_)
      have po := perm_cons_eraseP he
      simp only [Store.entries, List.map_cons, List.cons_append]
      exact (po.append_left _).trans List.perm_middle
    · exact pe
  · next hany =>
    have hnot : ∀ w ∈ s.ways, w.entry.key ≠ k := by
      intro w hm e
      refine hany (List.any_eq_true.2 ⟨w, hm, ?_⟩)
      simp [Way.holds, e, (h.way_bucket w hm)]
    have hov : ({ key := k, row } : IndexEntry) ∈ s.overflow := by
      rcases List.mem_append.1 hin with e | e
      · obtain ⟨w, hm, hw'⟩ := List.mem_map.1 e
        exact absurd (by rw [hw']) (hnot w hm)
      · exact e
    obtain ⟨x, hx⟩ := Option.isSome_iff_exists.1
      (List.find?_isSome.2 ⟨_, hov, (by simp : (k == k) = true)⟩ : (s.overflow.find? fun e => e.key == k).isSome)
    have hxk : x.key = k := by simpa using List.find?_some hx
    have hxe : x = { key := k, row } :=
      IndexEntry.eq_of_key h.keys_once (List.mem_append_right _ (List.mem_of_find?_eq_some hx)) hin hxk
    have po := perm_cons_eraseP hx
    rw [hxe] at po
    simp only [Store.entries]
    exact (po.append_left _).trans List.perm_middle

/-! ### The digests -/

theorem xorAt_length (l : List Word32) (i : Nat) (d : Word32) : (xorAt l i d).length = l.length := by
  simp [xorAt]

theorem xorAt_getD (l : List Word32) (i : Nat) (d : Word32) (j : Nat) (hi : i < l.length) :
    (xorAt l i d).getD j 0 = if j = i then l.getD j 0 ^^^ d else l.getD j 0 := by
  simp only [xorAt, List.getD_eq_getElem?_getD, List.getElem?_modify]
  by_cases e : j = i
  · subst e; simp [hi]
  · simp [e, Ne.symm e]

/-- The digests after a record's contributions are XORed through a segment (01, R21). -/
theorem Store.digest_xorRecord (s : Store) (g : Nat) (r : Record) (p : Profile) (j : Nat) (hf : g < s.fullDigests.length)
    (hc : g < s.compactDigests.length) :
    (s.xorRecord g r).digest p j = if j = g then s.digest p j ^^^ r.digest p else s.digest p j := by
  cases p
  · exact xorAt_getD _ _ _ _ hc
  · exact xorAt_getD _ _ _ _ hf

/-- The XOR over a segment after a free row is written. -/
theorem RowTable.digest_write_free (t : RowTable) (row : Nat) (r : Record) (p : Profile) (g : Nat)
    (h : Memory.read t row = none) :
    RowTable.digest (Memory.write t row r) p g =
      if row / 4096 = g then RowTable.digest t p g ^^^ r.digest p else RowTable.digest t p g := by
  induction t with
  | nil => simp [Memory.write, RowTable.digest]
  | cons c t ih =>
    rw [Memory.read_cons] at h
    split at h
    · cases h
    · next ne =>
      unfold Memory.write
      split
      · simp only [RowTable.digest, List.foldr_cons]
        split <;> split <;> first | rfl | exact BitVec.xor_comm _ _
      · rw [if_neg (Ne.symm ne)]
        have := ih h
        simp only [RowTable.digest, List.foldr_cons] at this ⊢
        rw [this]
        split <;> split <;> first | rfl | exact (BitVec.xor_assoc _ _ _).symm

/-- The XOR over a segment after a row's record is replaced. -/
theorem RowTable.digest_write_live {t : RowTable} (ht : Memory.wf t) (row : Nat) (old r : Record) (p : Profile) (g : Nat)
    (h : Memory.read t row = some old) :
    RowTable.digest (Memory.write t row r) p g =
      if row / 4096 = g then RowTable.digest t p g ^^^ old.digest p ^^^ r.digest p else RowTable.digest t p g := by
  induction t with
  | nil => simp at h
  | cons c t ih =>
    have hc := List.pairwise_cons.1 ht
    rw [Memory.read_cons] at h
    unfold Memory.write
    split at h
    · next e =>
      cases h
      rw [if_neg (by omega), if_pos e.symm]
      simp only [RowTable.digest, List.foldr_cons, e]
      split
      · next e2 =>
        generalize List.foldr _ _ t = x
        generalize c.2.digest p = a
        generalize r.digest p = b
        rw [BitVec.xor_comm a x, BitVec.xor_assoc x a a, BitVec.xor_self, BitVec.xor_zero, BitVec.xor_comm]
      · rfl
    · next ne =>
      have hm := hc.1 _ (Memory.mem_of_read h)
      rw [if_neg (by simp only at hm; omega), if_neg (Ne.symm ne)]
      have := ih hc.2 h
      simp only [RowTable.digest, List.foldr_cons] at this ⊢
      rw [this]
      split <;> split <;> first | rfl | simp only [BitVec.xor_assoc]

/-- The XOR over a segment after a row is freed. -/
theorem RowTable.digest_free {t : RowTable} (ht : Memory.wf t) (row : Nat) (old : Record) (p : Profile) (g : Nat)
    (h : Memory.read t row = some old) :
    RowTable.digest (Memory.free t row) p g =
      if row / 4096 = g then RowTable.digest t p g ^^^ old.digest p else RowTable.digest t p g := by
  induction t with
  | nil => simp at h
  | cons c t ih =>
    have hc := List.pairwise_cons.1 ht
    rw [Memory.read_cons] at h
    split at h
    · next e =>
      cases h
      have same : Memory.free (c :: t) row = t := by
        have : Memory.free t row = t := List.filter_eq_self.2 fun d hd => by
          have := hc.1 d hd
          simp; omega
        simpa [Memory.free, e] using this
      rw [same]
      simp only [RowTable.digest, List.foldr_cons, e]
      split
      · generalize List.foldr _ _ t = x
        rw [BitVec.xor_comm (c.2.digest p) x, BitVec.xor_assoc, BitVec.xor_self, BitVec.xor_zero]
      · rfl
    · next ne =>
      have step : Memory.free (c :: t) row = c :: Memory.free t row := by simp [Memory.free, ne]
      have := ih hc.2 h
      rw [step]
      simp only [RowTable.digest, List.foldr_cons] at this ⊢
      rw [this]
      split <;> split <;> first | rfl | exact (BitVec.xor_assoc _ _ _).symm

end Sys2Proof.Machine
end

