-- ==== Sys2Proof/Laws/Admission.lean ====
section
/-! SUPPORT. The admitted changes on the record store (02, R29 to R31): what INSERT, UPDATE and RETIRE leave in every row, stack,
key and digest, and that each keeps the store's three invariants. -/

namespace Sys2Proof.Machine

/-! ### Facts of an INITIALIZED store -/

/-- The row on top of the stack is a free row of the store. -/
theorem Store.RowsExact.top {s : Store} (h : s.RowsExact) (hi : s.phase = .initialized) {row : Nat}
    (ht : s.topRow = some row) : row < s.size ∧ s.row row = none := by
  refine (h.stack_free hi row).1 ?_
  rw [Store.freeRows_of_topRow ht]
  exact List.mem_cons_self ..

/-- A live row is a row of the store and holds a valid record. -/
theorem Store.RowsExact.live {s : Store} (h : s.RowsExact) {row : Nat} {r : Record} (hr : s.row row = some r) :
    row < s.size ∧ r.Valid :=
  ⟨h.below _ (Memory.mem_of_read hr), h.valid _ (Memory.mem_of_read hr)⟩

/-- A row of the store lies in one of its segments. -/
theorem Store.RowsExact.segment {s : Store} (h : s.RowsExact) (hi : s.phase = .initialized) {row : Nat}
    (hr : row < s.size) : segmentOf row < s.size / 4096 := by
  have a := h.size_allowed (by rw [hi]; decide)
  unfold allowedSize at a
  simp only [segmentOf, Config.segmentRows]
  omega

theorem Store.bucketOf_of_size {s t : Store} (h : s.size = t.size) (k : Key) : s.bucketOf k = t.bucketOf k := by
  simp [Store.bucketOf, Store.buckets, h]

/-! ### INSERT -/

@[simp] theorem Store.insert_phase (s : Store) (row : Nat) (r : Record) : (s.insert row r).phase = s.phase := by
  simp [Store.insert]
@[simp] theorem Store.insert_size (s : Store) (row : Nat) (r : Record) : (s.insert row r).size = s.size := by
  simp [Store.insert]
@[simp] theorem Store.insert_rows (s : Store) (row : Nat) (r : Record) :
    (s.insert row r).rows = Memory.write s.rows row r := by
  simp [Store.insert]
@[simp] theorem Store.insert_freeRows (s : Store) (row : Nat) (r : Record) :
    (s.insert row r).freeRows = s.popRow.freeRows := by
  simp [Store.insert]

/-- What each row holds after an INSERT. -/
theorem Store.insert_row (s : Store) (row k : Nat) (r : Record) :
    (s.insert row r).row k = if k = row then some r else s.row k := by
  simp [Store.row, Memory.read_write]

/-- An INSERT keeps the row table and the stack exact. -/
theorem Store.insert_rowsExact {s : Store} (h : s.RowsExact) (hi : s.phase = .initialized) {row : Nat}
    (ht : s.topRow = some row) {r : Record} (hr : r.Valid) : (s.insert row r).RowsExact := by
  have top := h.top hi ht
  have hs := Store.freeRows_of_topRow ht
  have nd := h.stack_once hi
  rw [hs] at nd
  have nd' := List.nodup_cons.1 nd
  constructor
  · intro e; rw [Store.insert_phase, hi] at e; cases e
  · intro e; rw [Store.insert_size]; exact h.size_allowed (by simpa using e)
  · rw [Store.insert_rows]; exact Memory.wf_write h.rising row r
  · intro c hc
    rw [Store.insert_rows] at hc; rw [Store.insert_size]
    rcases Memory.mem_write hc with rfl | hc
    · exact top.1
    · exact h.below c hc
  · intro c hc
    rw [Store.insert_rows] at hc
    rcases Memory.mem_write hc with rfl | hc
    · exact hr
    · exact h.valid c hc
  · intro e; rw [Store.insert_phase, hi] at e; exact absurd rfl e
  · intro _; rw [Store.insert_freeRows]; exact nd'.2
  · intro _ k
    rw [Store.insert_freeRows, Store.insert_size, Store.insert_row]
    have old := h.stack_free hi k
    rw [hs, List.mem_cons] at old
    by_cases e : k = row
    · subst e; simp [nd'.1]
    · simp only [e, false_or, if_false] at old ⊢
      exact old

theorem Store.insert_entries (s : Store) (row : Nat) (r : Record) :
    (s.insert row r).entries.Perm ({ key := r.key, row } :: s.entries) := by
  have := (s.popRow.writeRow row r).placeEntry_entries { key := r.key, row }
  simpa [Store.insert, Store.entries] using this

/-- The overflow list after an INSERT (01, R18). -/
theorem Store.insert_overflow (s : Store) (row : Nat) (r : Record) :
    (s.insert row r).overflow =
      if s.bucketLoad (s.bucketOf r.key) < 8 then s.overflow else s.overflow ++ [{ key := r.key, row }] := by
  have b : (s.popRow.writeRow row r).bucketOf r.key = s.bucketOf r.key := Store.bucketOf_of_size (by simp) _
  have l : ∀ n, (s.popRow.writeRow row r).bucketLoad n = s.bucketLoad n := fun n => by simp [Store.bucketLoad]
  simp only [Store.insert, Store.placeEntry, Store.xorRecord_overflow, b, l, Config.bucketWays]
  split <;> simp

/-- The occupied ways after an INSERT (01, R18). -/
theorem Store.insert_ways (s : Store) (row : Nat) (r : Record) :
    (s.insert row r).ways =
      if s.bucketLoad (s.bucketOf r.key) < 8 then
        { bucket := s.bucketOf r.key, entry := { key := r.key, row } } :: s.ways
      else s.ways := by
  have b : (s.popRow.writeRow row r).bucketOf r.key = s.bucketOf r.key := Store.bucketOf_of_size (by simp) _
  have l : ∀ n, (s.popRow.writeRow row r).bucketLoad n = s.bucketLoad n := fun n => by simp [Store.bucketLoad]
  simp only [Store.insert, Store.placeEntry, Store.xorRecord_ways, b, l, Config.bucketWays]
  split <;> simp

/-- An INSERT of a key that the store does not hold, into a free row and with a place, keeps the key index exact. -/
theorem Store.insert_indexExact {s : Store} (h : s.IndexExact) {row : Nat} {r : Record} (hf : s.row row = none)
    (hl : s.lookup r.key = none) (hp : s.canPlace r.key = true) : (s.insert row r).IndexExact := by
  have pe := s.insert_entries row r
  have fresh := (Store.lookup_eq_none h r.key).1 hl
  have bo : ∀ k, (s.insert row r).bucketOf k = s.bucketOf k := fun k => Store.bucketOf_of_size (by simp) k
  have load : ∀ b, (s.insert row r).bucketLoad b =
      s.bucketLoad b + if s.bucketLoad (s.bucketOf r.key) < 8 ∧ b = s.bucketOf r.key then 1 else 0 := by
    intro b
    unfold Store.bucketLoad
    rw [Store.insert_ways]
    by_cases c : s.bucketLoad (s.bucketOf r.key) < 8
    · rw [if_pos c, List.countP_cons]
      by_cases e : b = s.bucketOf r.key
      · subst e; simp; exact c
      · simp [e, Ne.symm e]
    · rw [if_neg c, if_neg fun x => c x.1]; rfl
  rw [Store.canPlace, Bool.or_eq_true, decide_eq_true_eq, decide_eq_true_eq] at hp
  change s.bucketLoad (s.bucketOf r.key) < 8 ∨ s.overflow.length < 256 at hp
  constructor
  · refine (pe.map IndexEntry.key).nodup_iff.2 (List.nodup_cons.2 ⟨?_, h.keys_once⟩)
    intro hm
    obtain ⟨e, he, hk⟩ := List.mem_map.1 hm
    simp only at hk
    obtain ⟨x, hx, hxk⟩ := (h.entry_iff e.key e.row).1 he
    exact fresh _ _ hx (hxk.trans hk)
  · intro k n
    rw [pe.mem_iff, List.mem_cons, Store.insert_row, h.entry_iff]
    by_cases e : n = row
    · subst e
      simp only [if_true, Option.some.injEq, exists_eq_left', hf]
      constructor
      · rintro (e | ⟨_, e, _⟩)
        · cases e; rfl
        · cases e
      · intro e; subst e; exact .inl rfl
    · simp [e]
  · intro w hw
    rw [Store.insert_ways] at hw
    rw [bo]
    split at hw
    · rcases List.mem_cons.1 hw with rfl | hw
      · rfl
      · exact h.way_bucket w hw
    · exact h.way_bucket w hw
  · intro b
    rw [load]
    have := h.ways_fit b
    split
    · next c => have := c.1; rw [c.2]; omega
    · omega
  · rw [Store.insert_overflow]
    have := h.overflow_fit
    split
    · exact this
    · next c =>
      rcases hp with hp | hp
      · exact absurd hp c
      · simp; omega
  · intro e he
    rw [Store.insert_overflow] at he
    rw [bo, load]
    split at he
    · next c =>
      have := h.overflow_full e he
      rw [if_neg (by rintro ⟨c1, c2⟩; rw [← c2] at c1; omega)]; omega
    · next c =>
      rw [if_neg (fun c' => c c'.1)]
      rcases List.mem_append.1 he with he | he
      · exact h.overflow_full e he
      · rw [List.mem_singleton] at he; subst he
        have := h.ways_fit (s.bucketOf r.key)
        simp only; omega

theorem Store.insert_digest {s : Store} (h : s.RowsExact) (hd : s.DigestsExact) (hi : s.phase = .initialized) {row : Nat}
    (hr : row < s.size) (r : Record) (p : Profile) (g : Nat) :
    (s.insert row r).digest p g = if g = row / 4096 then s.digest p g ^^^ r.digest p else s.digest p g := by
  have seg := h.segment hi hr
  unfold Store.insert
  rw [Store.digest_xorRecord]
  · have : ∀ g, ((s.popRow.writeRow row r).placeEntry { key := r.key, row }).digest p g = s.digest p g := by
      intro g; cases p <;> simp [Store.digest]
    simp only [this]; rfl
  · simpa [hd.full_count hi] using seg
  · simpa [hd.compact_count hi] using seg

/-- An INSERT into a free row keeps the digests exact. -/
theorem Store.insert_digestsExact {s : Store} (h : s.RowsExact) (hd : s.DigestsExact) (hi : s.phase = .initialized)
    {row : Nat} (hr : row < s.size) (hf : s.row row = none) (r : Record) : (s.insert row r).DigestsExact := by
  constructor
  · intro _; rw [Store.insert_size, ← hd.full_count hi]; simp [Store.insert, Store.xorRecord, xorAt_length]
  · intro _; rw [Store.insert_size, ← hd.compact_count hi]; simp [Store.insert, Store.xorRecord, xorAt_length]
  · intro _ p g hg
    rw [Store.insert_size] at hg
    rw [Store.insert_digest h hd hi hr, Store.insert_rows, RowTable.digest_write_free _ _ _ _ _ hf, hd.exact hi p g hg]
    by_cases e : g = row / 4096
    · simp [e]
    · simp [e, Ne.symm e]

/-! ### UPDATE -/

@[simp] theorem Store.update_phase (s : Store) (row : Nat) (old r : Record) : (s.update row old r).phase = s.phase := rfl
@[simp] theorem Store.update_size (s : Store) (row : Nat) (old r : Record) : (s.update row old r).size = s.size := rfl
@[simp] theorem Store.update_freeRows (s : Store) (row : Nat) (old r : Record) :
    (s.update row old r).freeRows = s.freeRows := rfl
@[simp] theorem Store.update_ways (s : Store) (row : Nat) (old r : Record) : (s.update row old r).ways = s.ways := rfl
@[simp] theorem Store.update_overflow (s : Store) (row : Nat) (old r : Record) :
    (s.update row old r).overflow = s.overflow := rfl
@[simp] theorem Store.update_rows (s : Store) (row : Nat) (old r : Record) :
    (s.update row old r).rows = Memory.write s.rows row r := rfl
@[simp] theorem Store.update_entries (s : Store) (row : Nat) (old r : Record) :
    (s.update row old r).entries = s.entries := rfl
@[simp] theorem Store.update_lookup (s : Store) (row : Nat) (old r : Record) (k : Key) :
    (s.update row old r).lookup k = s.lookup k := rfl

/-- What each row holds after an UPDATE. -/
theorem Store.update_row (s : Store) (row k : Nat) (old r : Record) :
    (s.update row old r).row k = if k = row then some r else s.row k := by
  simp [Store.row, Memory.read_write]

/-- An UPDATE of a live row keeps the row table and the stack exact. -/
theorem Store.update_rowsExact {s : Store} (h : s.RowsExact) {row : Nat} {old r : Record} (ho : s.row row = some old)
    (hr : r.Valid) : (s.update row old r).RowsExact := by
  have live := h.live ho
  constructor
  · exact h.size_zero
  · exact h.size_allowed
  · exact Memory.wf_write h.rising row r
  · intro c hc
    rcases Memory.mem_write hc with rfl | hc
    · exact live.1
    · exact h.below c hc
  · intro c hc
    rcases Memory.mem_write hc with rfl | hc
    · exact hr
    · exact h.valid c hc
  · intro e
    have hn := h.empty e
    rw [Store.row, hn] at ho; cases ho
  · exact h.stack_once
  · intro e k
    rw [Store.update_freeRows, Store.update_size, Store.update_row]
    have old' := h.stack_free e k
    by_cases e : k = row
    · subst e; simp [old', ho]
    · simp only [e, if_false]; exact old'

/-- An UPDATE that keeps the record's key keeps the key index exact. -/
theorem Store.update_indexExact {s : Store} (h : s.IndexExact) {row : Nat} {old r : Record} (ho : s.row row = some old)
    (hk : r.key = old.key) : (s.update row old r).IndexExact := by
  refine ⟨h.keys_once, ?_, h.way_bucket, h.ways_fit, h.overflow_fit, h.overflow_full⟩
  intro k n
  rw [Store.update_entries, h.entry_iff, Store.update_row]
  by_cases e : n = row
  · subst e; simp [ho, hk]
  · simp [e]

theorem Store.update_digest {s : Store} (h : s.RowsExact) (hd : s.DigestsExact) (hi : s.phase = .initialized) {row : Nat}
    (hr : row < s.size) (old r : Record) (p : Profile) (g : Nat) :
    (s.update row old r).digest p g =
      if g = row / 4096 then s.digest p g ^^^ old.digest p ^^^ r.digest p else s.digest p g := by
  have seg := h.segment hi hr
  have f : segmentOf row < s.fullDigests.length := by rw [hd.full_count hi]; exact seg
  have c : segmentOf row < s.compactDigests.length := by rw [hd.compact_count hi]; exact seg
  unfold Store.update
  rw [Store.digest_xorRecord _ _ _ _ _ (by simpa [Store.xorRecord, xorAt_length] using f)
    (by simpa [Store.xorRecord, xorAt_length] using c), Store.digest_xorRecord (s.writeRow row r) _ old p g f c]
  have : (s.writeRow row r).digest p g = s.digest p g := by cases p <;> rfl
  rw [this]
  simp only [segmentOf, Config.segmentRows]
  by_cases e : g = row / 4096 <;> simp [e]

/-- An UPDATE of a live row keeps the digests exact. -/
theorem Store.update_digestsExact {s : Store} (h : s.RowsExact) (hd : s.DigestsExact) (hi : s.phase = .initialized)
    {row : Nat} {old : Record} (ho : s.row row = some old) (r : Record) : (s.update row old r).DigestsExact := by
  constructor
  · intro _; rw [Store.update_size, ← hd.full_count hi]; simp [Store.update, Store.xorRecord, xorAt_length]
  · intro _; rw [Store.update_size, ← hd.compact_count hi]; simp [Store.update, Store.xorRecord, xorAt_length]
  · intro _ p g hg
    rw [Store.update_size] at hg
    rw [Store.update_digest h hd hi (h.live ho).1, Store.update_rows, RowTable.digest_write_live h.rising _ old _ _ _ ho,
      hd.exact hi p g hg]
    by_cases e : g = row / 4096
    · simp [e]
    · simp [e, Ne.symm e]

/-! ### RETIRE -/

@[simp] theorem Store.retire_phase (s : Store) (k : Key) (row : Nat) (old : Record) : (s.retire k row old).phase = s.phase := by
  simp [Store.retire]
@[simp] theorem Store.retire_size (s : Store) (k : Key) (row : Nat) (old : Record) : (s.retire k row old).size = s.size := by
  simp [Store.retire]
@[simp] theorem Store.retire_rows (s : Store) (k : Key) (row : Nat) (old : Record) :
    (s.retire k row old).rows = Memory.free s.rows row := by
  simp [Store.retire]
@[simp] theorem Store.retire_freeRows (s : Store) (k : Key) (row : Nat) (old : Record) :
    (s.retire k row old).freeRows = row :: s.freeRows := by
  simp [Store.retire]
@[simp] theorem Store.retire_ways (s : Store) (k : Key) (row : Nat) (old : Record) :
    (s.retire k row old).ways = (s.removeEntry k).ways := rfl
@[simp] theorem Store.retire_overflow (s : Store) (k : Key) (row : Nat) (old : Record) :
    (s.retire k row old).overflow = (s.removeEntry k).overflow := rfl

/-- What each row holds after a RETIRE. -/
theorem Store.retire_row (s : Store) (k : Key) (row n : Nat) (old : Record) :
    (s.retire k row old).row n = if n = row then none else s.row n := by
  simp [Store.row, Memory.read_free]

/-- A RETIRE of a live row keeps the row table and the stack exact. -/
theorem Store.retire_rowsExact {s : Store} (h : s.RowsExact) (hi : s.phase = .initialized) (k : Key) {row : Nat}
    {old : Record} (ho : s.row row = some old) : (s.retire k row old).RowsExact := by
  have live := h.live ho
  have notin : row ∉ s.freeRows := fun hm => by
    have := ((h.stack_free hi row).1 hm).2
    rw [ho] at this; cases this
  have sub : ∀ c ∈ Memory.free s.rows row, c ∈ s.rows := fun c hc => (List.mem_filter.1 hc).1
  constructor
  · intro e; rw [Store.retire_phase, hi] at e; cases e
  · intro e; rw [Store.retire_size]; exact h.size_allowed (by rw [hi]; decide)
  · rw [Store.retire_rows]; exact Memory.wf_free h.rising row
  · intro c hc; rw [Store.retire_rows] at hc; rw [Store.retire_size]; exact h.below c (sub c hc)
  · intro c hc; rw [Store.retire_rows] at hc; exact h.valid c (sub c hc)
  · intro e; rw [Store.retire_phase, hi] at e; exact absurd rfl e
  · intro _; rw [Store.retire_freeRows]; exact List.nodup_cons.2 ⟨notin, h.stack_once hi⟩
  · intro _ n
    rw [Store.retire_freeRows, Store.retire_size, Store.retire_row, List.mem_cons, h.stack_free hi]
    by_cases e : n = row
    · subst e; simp [live.1]
    · simp [e]

/-- The occupied ways of a bucket after an entry is removed: one fewer only in the key's own bucket, and then only when no entry
of that bucket stands in the overflow list (01, R19). -/
theorem Store.bucketLoad_removeEntry {s : Store} (k : Key) (b : Nat) :
    (s.removeEntry k).bucketLoad b ≤ s.bucketLoad b ∧
    (((s.removeEntry k).bucketLoad b < s.bucketLoad b) →
      b = s.bucketOf k ∧ ∀ e ∈ (s.removeEntry k).overflow, s.bucketOf e.key ≠ b) := by
  unfold Store.removeEntry Store.bucketLoad
  simp only []
  split
  · next hany =>
    obtain ⟨w, hw⟩ := Option.isSome_iff_exists.1 (List.find?_isSome.2 (List.any_eq_true.1 hany))
    have wb : w.bucket = s.bucketOf k := by
      have := List.find?_some hw; simp [Way.holds] at this; exact this.1
    have count := (perm_cons_eraseP hw).countP_eq fun w => w.bucket == b
    rw [List.countP_cons] at count
    split
    · rw [List.countP_cons, count]
      simp only [wb]
      omega
    · next hn =>
      rw [count, wb]
      by_cases e : s.bucketOf k = b
      · simp only [e, beq_self_eq_true, if_true]
        refine ⟨Nat.le_succ _, fun _ => ⟨trivial, fun x hx hb => ?_⟩⟩
        have := List.find?_eq_none.1 hn x hx
        simp [e, hb] at this
      · simp [e]
  · simp

/-- A RETIRE keeps the key index exact. -/
theorem Store.retire_indexExact {s : Store} (h : s.IndexExact) {k : Key} {row : Nat} {old : Record}
    (ho : s.row row = some old) (hk : old.key = k) : (s.retire k row old).IndexExact := by
  have hl : s.lookup k = some row := (Store.lookup_eq_some_row h k row).2 ⟨old, ho, hk⟩
  have pe := Store.removeEntry_entries h hl
  have en : (s.retire k row old).entries = (s.removeEntry k).entries := rfl
  have nd := (pe.map IndexEntry.key).nodup_iff.1 h.keys_once
  have nd' := List.nodup_cons.1 nd
  have bo : ∀ x, (s.retire k row old).bucketOf x = s.bucketOf x := fun x => Store.bucketOf_of_size (by simp) x
  have ld : ∀ b, (s.retire k row old).bucketLoad b = (s.removeEntry k).bucketLoad b := fun b => rfl
  have subo : ∀ e ∈ (s.removeEntry k).overflow, e ∈ s.overflow := by
    intro e he
    unfold Store.removeEntry at he
    simp only [] at he
    split at he
    · split at he
      · exact List.mem_of_mem_eraseP he
      · exact he
    · exact List.mem_of_mem_eraseP he
  constructor
  · rw [en]; exact nd'.2
  · intro x n
    rw [en, Store.retire_row]
    have iff : ({ key := x, row := n } : IndexEntry) ∈ (s.removeEntry k).entries ↔
        ({ key := x, row := n } : IndexEntry) ∈ s.entries ∧ x ≠ k := by
      rw [pe.mem_iff, List.mem_cons]
      constructor
      · intro hm
        exact ⟨.inr hm, fun e => nd'.1 (List.mem_map.2 ⟨_, hm, e⟩)⟩
      · rintro ⟨e | e, ne⟩
        · cases e; exact absurd rfl ne
        · exact e
    rw [iff, h.entry_iff]
    by_cases e : n = row
    · subst e
      simp only [ho, if_true]
      constructor
      · rintro ⟨⟨r, e, rfl⟩, ne⟩; cases e; exact absurd hk ne
      · rintro ⟨_, e, _⟩; cases e
    · simp only [e, if_false]
      constructor
      · rintro ⟨hx, _⟩; exact hx
      · rintro ⟨r, hr, rfl⟩
        refine ⟨⟨r, hr, rfl⟩, fun e' => e ?_⟩
        have := (Store.lookup_eq_some_row h k n).2 ⟨r, hr, e'⟩
        rw [hl] at this; cases this; rfl
  · intro w hw
    rw [bo]
    rw [Store.retire_ways] at hw
    unfold Store.removeEntry at hw
    simp only [] at hw
    split at hw
    · split at hw
      · next e he =>
        rcases List.mem_cons.1 hw with rfl | hw
        · have := List.find?_some he; simp at this; exact this.symm
        · exact h.way_bucket w (List.mem_of_mem_eraseP hw)
      · exact h.way_bucket w (List.mem_of_mem_eraseP hw)
    · exact h.way_bucket w hw
  · intro b; rw [ld]; exact Nat.le_trans (Store.bucketLoad_removeEntry k b).1 (h.ways_fit b)
  · rw [Store.retire_overflow]
    refine Nat.le_trans ?_ h.overflow_fit
    unfold Store.removeEntry
    simp only []
    split
    · split
      · exact (List.eraseP_sublist ..).length_le
      · exact Nat.le_refl _
    · exact (List.eraseP_sublist ..).length_le
  · intro e he
    rw [bo, ld]
    rw [Store.retire_overflow] at he
    have full := h.overflow_full e (subo e he)
    have bl := Store.bucketLoad_removeEntry (s := s) k (s.bucketOf e.key)
    by_cases lt : (s.removeEntry k).bucketLoad (s.bucketOf e.key) < s.bucketLoad (s.bucketOf e.key)
    · exact absurd rfl ((bl.2 lt).2 e he)
    · omega

theorem Store.retire_digest {s : Store} (h : s.RowsExact) (hd : s.DigestsExact) (hi : s.phase = .initialized) (k : Key)
    {row : Nat} (hr : row < s.size) (old : Record) (p : Profile) (g : Nat) :
    (s.retire k row old).digest p g = if g = row / 4096 then s.digest p g ^^^ old.digest p else s.digest p g := by
  have seg := h.segment hi hr
  have out : (s.retire k row old).digest p g = ((s.removeEntry k).xorRecord (segmentOf row) old).digest p g := by
    cases p <;> rfl
  rw [out, Store.digest_xorRecord]
  · have : ∀ g, (s.removeEntry k).digest p g = s.digest p g := by intro g; cases p <;> simp [Store.digest]
    simp only [this]; rfl
  · simpa [hd.full_count hi] using seg
  · simpa [hd.compact_count hi] using seg

/-- A RETIRE of a live row keeps the digests exact. -/
theorem Store.retire_digestsExact {s : Store} (h : s.RowsExact) (hd : s.DigestsExact) (hi : s.phase = .initialized)
    (k : Key) {row : Nat} {old : Record} (ho : s.row row = some old) : (s.retire k row old).DigestsExact := by
  constructor
  · intro _; rw [Store.retire_size, ← hd.full_count hi]; simp [Store.retire, Store.xorRecord, xorAt_length]
  · intro _; rw [Store.retire_size, ← hd.compact_count hi]; simp [Store.retire, Store.xorRecord, xorAt_length]
  · intro _ p g hg
    rw [Store.retire_size] at hg
    rw [Store.retire_digest h hd hi k (h.live ho).1, Store.retire_rows, RowTable.digest_free h.rising _ old _ _ ho,
      hd.exact hi p g hg]
    by_cases e : g = row / 4096
    · simp [e]
    · simp [e, Ne.symm e]

/-! ### The store at the end of initialisation -/

/-- A store whose initialisation has just completed has all its rows free, row 0 on top (01, R13). -/
theorem Store.complete_freeRows (s : Store) : s.complete.freeRows = List.range s.size := by
  simp [Store.complete, Store.freeRows, List.range_eq_range']

/-- Completing the initialisation of a store of an allowed size makes the three invariants hold. -/
theorem Store.complete_exact (s : Store) (h : allowedSize s.size) :
    s.complete.RowsExact ∧ s.complete.IndexExact ∧ s.complete.DigestsExact := by
  refine ⟨⟨?_, ?_, ?_, ?_, ?_, ?_, ?_, ?_⟩, ⟨?_, ?_, ?_, ?_, ?_, ?_⟩, ⟨?_, ?_, ?_⟩⟩
  · intro e; cases e
  · intro _; exact h
  · exact List.Pairwise.nil
  · intro c hc; cases hc
  · intro c hc; cases hc
  · intro _; rfl
  · intro _; rw [Store.complete_freeRows]; exact List.nodup_range
  · intro _ row
    rw [Store.complete_freeRows, List.mem_range]
    exact ⟨fun hr => ⟨hr, rfl⟩, fun hr => hr.1⟩
  · exact List.nodup_nil
  · intro k row
    constructor
    · intro hm; cases hm
    · rintro ⟨r, hr, _⟩; cases hr
  · intro w hw; cases hw
  · intro b; exact Nat.zero_le _
  · exact Nat.zero_le _
  · intro e he; cases he
  · intro _; simp [Store.complete, Store.segments, Config.segmentRows]
  · intro _; simp [Store.complete, Store.segments, Config.segmentRows]
  · intro _ p g _
    have : RowTable.digest s.complete.rows p g = 0 := rfl
    rw [this]
    cases p <;> simp only [Store.digest, Store.complete, List.getD_eq_getElem?_getD, List.getElem?_replicate] <;>
      split <;> rfl

end Sys2Proof.Machine
end

