-- ==== Sys2Proof/Laws/State.lean ====
section
/-! SUPPORT. The fields of State under its own updates: what each named update of lanes, jobs, queues and grant leaves, true by
`rfl` and tagged for `simp`, so that no later proof unfolds a record update. -/

namespace Sys2Proof.Machine

/-! ### One element of a vector -/

/-- `mapVector` is the library's map. -/
theorem mapVector_eq_map {α : Type} {n : Nat} (f : α → α) (v : Vector α n) : mapVector f v = v.map f := by
  ext i hi
  simp [mapVector]

@[simp] theorem getElem_mapVector {α : Type} {n : Nat} (f : α → α) (v : Vector α n) (i : Nat) (hi : i < n) :
    (mapVector f v)[i] = f v[i] := by
  simp [mapVector_eq_map]

/-! ### Lanes -/

theorem State.lane_setLane (s : State) (i k : Slot) (l : Lane) :
    (s.setLane i l).lane k = if k = i then l else s.lane k := by
  by_cases h : k = i
  · subst h; simp [State.lane, State.setLane]
  · simp only [h, if_false]
    have : (i : Nat) ≠ k := fun e => h (Fin.ext e.symm)
    simp [State.lane, State.setLane, this]

@[simp] theorem State.lane_setLane_self (s : State) (i : Slot) (l : Lane) : (s.setLane i l).lane i = l := by
  simp [State.lane_setLane]

theorem State.lane_setLane_of_ne (s : State) {i k : Slot} (l : Lane) (h : k ≠ i) : (s.setLane i l).lane k = s.lane k := by
  simp [State.lane_setLane, h]

@[simp] theorem State.lane_mapLanes (s : State) (f : Lane → Lane) (i : Slot) : (s.mapLanes f).lane i = f (s.lane i) := by
  simp [State.lane, State.mapLanes]

@[simp] theorem State.setLane_lane (s : State) (i : Slot) : s.setLane i (s.lane i) = s := by
  have : s.lanes.set i s.lanes[i] = s.lanes := by
    ext k hk
    by_cases h : (i : Nat) = k <;> simp [h]
  simp only [State.setLane, State.lane]
  rw [this]

@[simp] theorem State.setLane_setLane (s : State) (i : Slot) (l k : Lane) : (s.setLane i l).setLane i k = s.setLane i k := by
  simp [State.setLane]

/-! ### Jobs -/

theorem State.job_setJob (s : State) (i k : JobNo) (e : Option Job) :
    (s.setJob i e).job k = if k = i then e else s.job k := by
  by_cases h : k = i
  · subst h; simp [State.job, State.setJob]
  · simp only [h, if_false]
    have : (i : Nat) ≠ k := fun e => h (Fin.ext e.symm)
    simp [State.job, State.setJob, this]

@[simp] theorem State.job_setJob_self (s : State) (i : JobNo) (e : Option Job) : (s.setJob i e).job i = e := by
  simp [State.job_setJob]

theorem State.job_setJob_of_ne (s : State) {i k : JobNo} (e : Option Job) (h : k ≠ i) : (s.setJob i e).job k = s.job k := by
  simp [State.job_setJob, h]

@[simp] theorem State.job_mapJobs (s : State) (f : Job → Job) (j : JobNo) : (s.mapJobs f).job j = (s.job j).map f := by
  simp [State.job, State.mapJobs]

@[simp] theorem State.setJob_setJob (s : State) (j : JobNo) (e f : Option Job) : (s.setJob j e).setJob j f = s.setJob j f := by
  simp [State.setJob]

/-! ### The fields each update leaves -/

@[simp] theorem State.setLane_pending (s : State) (i : Slot) (l : Lane) : (s.setLane i l).pending = s.pending := rfl
@[simp] theorem State.setLane_powerOnReset (s : State) (i : Slot) (l : Lane) : (s.setLane i l).powerOnReset = s.powerOnReset := rfl
@[simp] theorem State.setLane_pinAsserted (s : State) (i : Slot) (l : Lane) : (s.setLane i l).pinAsserted = s.pinAsserted := rfl
@[simp] theorem State.setLane_requests (s : State) (i : Slot) (l : Lane) : (s.setLane i l).requests = s.requests := rfl
@[simp] theorem State.setLane_responses (s : State) (i : Slot) (l : Lane) : (s.setLane i l).responses = s.responses := rfl
@[simp] theorem State.setLane_overrun (s : State) (i : Slot) (l : Lane) : (s.setLane i l).overrun = s.overrun := rfl
@[simp] theorem State.setLane_storeInitTag (s : State) (i : Slot) (l : Lane) : (s.setLane i l).storeInitTag = s.storeInitTag := rfl
@[simp] theorem State.setLane_noticePointer (s : State) (i : Slot) (l : Lane) : (s.setLane i l).noticePointer = s.noticePointer := rfl
@[simp] theorem State.setLane_settings (s : State) (i : Slot) (l : Lane) : (s.setLane i l).settings = s.settings := rfl
@[simp] theorem State.setLane_interrupts (s : State) (i : Slot) (l : Lane) : (s.setLane i l).interrupts = s.interrupts := rfl
@[simp] theorem State.setLane_store (s : State) (i : Slot) (l : Lane) : (s.setLane i l).store = s.store := rfl
@[simp] theorem State.setLane_scanner (s : State) (i : Slot) (l : Lane) : (s.setLane i l).scanner = s.scanner := rfl
@[simp] theorem State.setLane_master (s : State) (i : Slot) (l : Lane) : (s.setLane i l).master = s.master := rfl
@[simp] theorem State.setLane_job (s : State) (i : Slot) (l : Lane) (j : JobNo) : (s.setLane i l).job j = s.job j := rfl
@[simp] theorem State.setLane_grant (s : State) (i : Slot) (l : Lane) : (s.setLane i l).grant = s.grant := rfl
@[simp] theorem State.setLane_freezePointer (s : State) (i : Slot) (l : Lane) : (s.setLane i l).freezePointer = s.freezePointer := rfl
@[simp] theorem State.setLane_loadPointer (s : State) (i : Slot) (l : Lane) : (s.setLane i l).loadPointer = s.loadPointer := rfl

@[simp] theorem State.setJob_pending (s : State) (j : JobNo) (e : Option Job) : (s.setJob j e).pending = s.pending := rfl
@[simp] theorem State.setJob_powerOnReset (s : State) (j : JobNo) (e : Option Job) : (s.setJob j e).powerOnReset = s.powerOnReset := rfl
@[simp] theorem State.setJob_pinAsserted (s : State) (j : JobNo) (e : Option Job) : (s.setJob j e).pinAsserted = s.pinAsserted := rfl
@[simp] theorem State.setJob_requests (s : State) (j : JobNo) (e : Option Job) : (s.setJob j e).requests = s.requests := rfl
@[simp] theorem State.setJob_responses (s : State) (j : JobNo) (e : Option Job) : (s.setJob j e).responses = s.responses := rfl
@[simp] theorem State.setJob_overrun (s : State) (j : JobNo) (e : Option Job) : (s.setJob j e).overrun = s.overrun := rfl
@[simp] theorem State.setJob_storeInitTag (s : State) (j : JobNo) (e : Option Job) : (s.setJob j e).storeInitTag = s.storeInitTag := rfl
@[simp] theorem State.setJob_settings (s : State) (j : JobNo) (e : Option Job) : (s.setJob j e).settings = s.settings := rfl
@[simp] theorem State.setJob_interrupts (s : State) (j : JobNo) (e : Option Job) : (s.setJob j e).interrupts = s.interrupts := rfl
@[simp] theorem State.setJob_store (s : State) (j : JobNo) (e : Option Job) : (s.setJob j e).store = s.store := rfl
@[simp] theorem State.setJob_scanner (s : State) (j : JobNo) (e : Option Job) : (s.setJob j e).scanner = s.scanner := rfl
@[simp] theorem State.setJob_master (s : State) (j : JobNo) (e : Option Job) : (s.setJob j e).master = s.master := rfl
@[simp] theorem State.setJob_lane (s : State) (j : JobNo) (e : Option Job) (i : Slot) : (s.setJob j e).lane i = s.lane i := rfl
@[simp] theorem State.setJob_grant (s : State) (j : JobNo) (e : Option Job) : (s.setJob j e).grant = s.grant := rfl
@[simp] theorem State.setJob_freezePointer (s : State) (j : JobNo) (e : Option Job) : (s.setJob j e).freezePointer = s.freezePointer := rfl
@[simp] theorem State.setJob_loadPointer (s : State) (j : JobNo) (e : Option Job) : (s.setJob j e).loadPointer = s.loadPointer := rfl

@[simp] theorem State.mapLanes_store (s : State) (f : Lane → Lane) : (s.mapLanes f).store = s.store := rfl
@[simp] theorem State.mapLanes_job (s : State) (f : Lane → Lane) (j : JobNo) : (s.mapLanes f).job j = s.job j := rfl
@[simp] theorem State.mapLanes_grant (s : State) (f : Lane → Lane) : (s.mapLanes f).grant = s.grant := rfl
@[simp] theorem State.mapLanes_master (s : State) (f : Lane → Lane) : (s.mapLanes f).master = s.master := rfl
@[simp] theorem State.mapLanes_pending (s : State) (f : Lane → Lane) : (s.mapLanes f).pending = s.pending := rfl
@[simp] theorem State.mapLanes_settings (s : State) (f : Lane → Lane) : (s.mapLanes f).settings = s.settings := rfl
@[simp] theorem State.mapLanes_responses (s : State) (f : Lane → Lane) : (s.mapLanes f).responses = s.responses := rfl
@[simp] theorem State.mapLanes_requests (s : State) (f : Lane → Lane) : (s.mapLanes f).requests = s.requests := rfl
@[simp] theorem State.mapLanes_interrupts (s : State) (f : Lane → Lane) : (s.mapLanes f).interrupts = s.interrupts := rfl
@[simp] theorem State.mapLanes_storeInitTag (s : State) (f : Lane → Lane) : (s.mapLanes f).storeInitTag = s.storeInitTag := rfl
@[simp] theorem State.mapLanes_inReset (s : State) (f : Lane → Lane) : (s.mapLanes f).inReset = s.inReset := rfl

@[simp] theorem State.mapJobs_store (s : State) (f : Job → Job) : (s.mapJobs f).store = s.store := rfl
@[simp] theorem State.mapJobs_lane (s : State) (f : Job → Job) (i : Slot) : (s.mapJobs f).lane i = s.lane i := rfl
@[simp] theorem State.mapJobs_grant (s : State) (f : Job → Job) : (s.mapJobs f).grant = s.grant := rfl
@[simp] theorem State.mapJobs_master (s : State) (f : Job → Job) : (s.mapJobs f).master = s.master := rfl
@[simp] theorem State.mapJobs_pending (s : State) (f : Job → Job) : (s.mapJobs f).pending = s.pending := rfl
@[simp] theorem State.mapJobs_settings (s : State) (f : Job → Job) : (s.mapJobs f).settings = s.settings := rfl
@[simp] theorem State.mapJobs_responses (s : State) (f : Job → Job) : (s.mapJobs f).responses = s.responses := rfl
@[simp] theorem State.mapJobs_requests (s : State) (f : Job → Job) : (s.mapJobs f).requests = s.requests := rfl
@[simp] theorem State.mapJobs_interrupts (s : State) (f : Job → Job) : (s.mapJobs f).interrupts = s.interrupts := rfl
@[simp] theorem State.mapJobs_storeInitTag (s : State) (f : Job → Job) : (s.mapJobs f).storeInitTag = s.storeInitTag := rfl
@[simp] theorem State.mapJobs_inReset (s : State) (f : Job → Job) : (s.mapJobs f).inReset = s.inReset := rfl

@[simp] theorem State.setLane_inReset (s : State) (i : Slot) (l : Lane) : (s.setLane i l).inReset = s.inReset := rfl
@[simp] theorem State.setJob_inReset (s : State) (j : JobNo) (e : Option Job) : (s.setJob j e).inReset = s.inReset := rfl

@[simp] theorem State.place_pending (s : State) (m : OutMessage) : (s.place m).pending = s.pending := rfl
@[simp] theorem State.place_requests (s : State) (m : OutMessage) : (s.place m).requests = s.requests := rfl
@[simp] theorem State.place_responses (s : State) (m : OutMessage) :
    (s.place m).responses = s.responses ++ [{ m with overrun := s.overrun }] := rfl
@[simp] theorem State.place_overrun (s : State) (m : OutMessage) : (s.place m).overrun = false := rfl
@[simp] theorem State.place_interrupts (s : State) (m : OutMessage) :
    (s.place m).interrupts = if s.responses = [] then s.interrupts + 1 else s.interrupts := rfl
@[simp] theorem State.place_store (s : State) (m : OutMessage) : (s.place m).store = s.store := rfl
@[simp] theorem State.place_storeInitTag (s : State) (m : OutMessage) : (s.place m).storeInitTag = s.storeInitTag := rfl
@[simp] theorem State.place_settings (s : State) (m : OutMessage) : (s.place m).settings = s.settings := rfl
@[simp] theorem State.place_scanner (s : State) (m : OutMessage) : (s.place m).scanner = s.scanner := rfl
@[simp] theorem State.place_master (s : State) (m : OutMessage) : (s.place m).master = s.master := rfl
@[simp] theorem State.place_lane (s : State) (m : OutMessage) (i : Slot) : (s.place m).lane i = s.lane i := rfl
@[simp] theorem State.place_job (s : State) (m : OutMessage) (j : JobNo) : (s.place m).job j = s.job j := rfl
@[simp] theorem State.place_grant (s : State) (m : OutMessage) : (s.place m).grant = s.grant := rfl
@[simp] theorem State.place_inReset (s : State) (m : OutMessage) : (s.place m).inReset = s.inReset := rfl

/-- Placing is the statements' `placed`. -/
theorem State.place_eq_placed (s : State) (m : OutMessage) : s.place m = s.placed m := rfl

/-- A response placed after its request has left the queue is the statements' `answered`. -/
theorem State.respond_eq_answered (s : State) (m : List Byte) (rest : List (List Byte)) (status : Status) (body : Payload) :
    { s with requests := rest }.respond m status body = s.answered m rest status body := rfl

end Sys2Proof.Machine
end

