-- ==== Sys2Proof/Laws/Copy.lean ====
section
/-! SUPPORT. What the copy engine's shared operations (Machine/CopyOps.lean) touch: nothing outside lanes, jobs, the grant and
the arbiter's pointers, and which lanes and jobs. One lemma per operation. -/

namespace Sys2Proof.Machine

/-! ### The rest of the part -/

/-- The state with lanes, jobs, grant and arbiter pointers put aside: what the copy engine does not touch. -/
def State.outside (s : State) : State :=
  { s with
    lanes := Vector.replicate 16 Lane.reset, jobs := Vector.replicate 4 none, grant := none, freezePointer := 0
    loadPointer := 0 }

theorem State.outside_fields {s t : State} (h : s.outside = t.outside) :
    s.pending = t.pending ∧ s.requests = t.requests ∧ s.responses = t.responses ∧ s.overrun = t.overrun ∧
    s.storeInitTag = t.storeInitTag ∧ s.settings = t.settings ∧ s.interrupts = t.interrupts ∧ s.readData = t.readData ∧
    s.store = t.store ∧ s.scanner = t.scanner ∧ s.master = t.master ∧ s.inReset = t.inReset ∧
    s.powerOnReset = t.powerOnReset ∧ s.pinAsserted = t.pinAsserted ∧ s.noticePointer = t.noticePointer ∧
    s.resetCause = t.resetCause := by
  simp only [State.outside, State.mk.injEq] at h
  simp [State.inReset, h]

@[simp] theorem State.setLane_outside (s : State) (i : Slot) (l : Lane) : (s.setLane i l).outside = s.outside := rfl
@[simp] theorem State.setJob_outside (s : State) (j : JobNo) (e : Option Job) : (s.setJob j e).outside = s.outside := rfl
@[simp] theorem State.mapLanes_outside (s : State) (f : Lane → Lane) : (s.mapLanes f).outside = s.outside := rfl
@[simp] theorem State.mapJobs_outside (s : State) (f : Job → Job) : (s.mapJobs f).outside = s.outside := rfl

@[simp] theorem State.beginGrant_outside (s : State) (j : JobNo) : (s.beginGrant j).outside = s.outside := by
  unfold State.beginGrant; split
  · rfl
  · split <;> rfl

@[simp] theorem State.arbitrate_outside (s : State) : s.arbitrate.outside = s.outside := by
  unfold State.arbitrate; split
  · rfl
  · split
    · rw [State.beginGrant_outside]; rfl
    · split
      · rw [State.beginGrant_outside]; rfl
      · rfl

@[simp] theorem State.dropGrant_outside (s : State) (j : JobNo) : (s.dropGrant j).outside = s.outside := by
  unfold State.dropGrant; split <;> rfl

@[simp] theorem State.closeGrant_outside (s : State) (j : JobNo) : (s.closeGrant j).outside = s.outside := by
  unfold State.closeGrant; split
  · split <;> rfl
  · rfl

@[simp] theorem State.endJob_outside (s : State) (j : JobNo) (o : JobState) : (s.endJob j o).outside = s.outside := by
  unfold State.endJob; split <;> simp

@[simp] theorem State.failJobOn_outside (s : State) (i : Slot) (c : JobCause) : (s.failJobOn i c).outside = s.outside := by
  unfold State.failJobOn; split <;> simp

@[simp] theorem State.linkFailure_outside (s : State) (i : Slot) : (s.linkFailure i).outside = s.outside := by
  unfold State.linkFailure; simp only []; split <;> simp

@[simp] theorem State.failBurst_outside (s : State) (i : Slot) (b : Burst) : (s.failBurst i b).outside = s.outside := by
  unfold State.failBurst; simp only []; split <;> simp

@[simp] theorem State.freezeDrained_outside (s : State) (j : JobNo) (job : Job) :
    (s.freezeDrained j job).outside = s.outside := by
  unfold State.freezeDrained; split <;> simp

@[simp] theorem State.freeze_outside (s : State) (j : JobNo) (job : Job) : (s.freeze j job).outside = s.outside := by
  unfold State.freeze; simp only []; split <;> simp

@[simp] theorem State.evaluate_outside (s : State) (j : JobNo) (job : Job) : (s.evaluate j job).outside = s.outside := by
  unfold State.evaluate; simp only []
  split
  · simp
  · split
    · split <;> simp
    · simp

@[simp] theorem State.endOfWork_outside (s : State) (j : JobNo) : (s.endOfWork j).outside = s.outside := by
  unfold State.endOfWork; split
  · rfl
  · split
    · rfl
    · split <;> first | rfl | (split <;> simp)

@[simp] theorem State.endRound_outside (s : State) (j : JobNo) (job : Job) : (s.endRound j job).outside = s.outside := by
  unfold State.endRound; simp only []; split
  · simp
  · split <;> simp

@[simp] theorem State.verifyAnswer_outside (s : State) (j : JobNo) (job : Job) (segment : Nat) (d : Word32) :
    (s.verifyAnswer j job segment d).outside = s.outside := by
  unfold State.verifyAnswer; simp only []; split <;> simp

@[simp] theorem State.reportRetired_outside (s : State) (j : JobNo) (frames : List Frame) (d : Option Word32) :
    (s.reportRetired j frames d).outside = s.outside := by
  unfold State.reportRetired; split
  · rfl
  · simp only []
    split <;> first | rfl | simp | (split <;> simp)

/-! ### The fields read off -/

@[simp] theorem State.arbitrate_pending (s : State) : (s.arbitrate).pending = s.pending :=
  have h := State.outside_fields (State.arbitrate_outside s); h.1
@[simp] theorem State.arbitrate_requests (s : State) : (s.arbitrate).requests = s.requests :=
  have h := State.outside_fields (State.arbitrate_outside s); h.2.1
@[simp] theorem State.arbitrate_responses (s : State) : (s.arbitrate).responses = s.responses :=
  have h := State.outside_fields (State.arbitrate_outside s); h.2.2.1
@[simp] theorem State.arbitrate_storeInitTag (s : State) : (s.arbitrate).storeInitTag = s.storeInitTag :=
  have h := State.outside_fields (State.arbitrate_outside s); h.2.2.2.2.1
@[simp] theorem State.arbitrate_settings (s : State) : (s.arbitrate).settings = s.settings :=
  have h := State.outside_fields (State.arbitrate_outside s); h.2.2.2.2.2.1
@[simp] theorem State.arbitrate_interrupts (s : State) : (s.arbitrate).interrupts = s.interrupts :=
  have h := State.outside_fields (State.arbitrate_outside s); h.2.2.2.2.2.2.1
@[simp] theorem State.arbitrate_store (s : State) : (s.arbitrate).store = s.store :=
  have h := State.outside_fields (State.arbitrate_outside s); h.2.2.2.2.2.2.2.2.1
@[simp] theorem State.arbitrate_master (s : State) : (s.arbitrate).master = s.master :=
  have h := State.outside_fields (State.arbitrate_outside s); h.2.2.2.2.2.2.2.2.2.2.1
@[simp] theorem State.arbitrate_inReset (s : State) : (s.arbitrate).inReset = s.inReset :=
  have h := State.outside_fields (State.arbitrate_outside s); h.2.2.2.2.2.2.2.2.2.2.2.1
@[simp] theorem State.endJob_pending (s : State) (j : JobNo) (o : JobState) : (s.endJob j o).pending = s.pending :=
  have h := State.outside_fields (State.endJob_outside s j o); h.1
@[simp] theorem State.endJob_requests (s : State) (j : JobNo) (o : JobState) : (s.endJob j o).requests = s.requests :=
  have h := State.outside_fields (State.endJob_outside s j o); h.2.1
@[simp] theorem State.endJob_responses (s : State) (j : JobNo) (o : JobState) : (s.endJob j o).responses = s.responses :=
  have h := State.outside_fields (State.endJob_outside s j o); h.2.2.1
@[simp] theorem State.endJob_storeInitTag (s : State) (j : JobNo) (o : JobState) : (s.endJob j o).storeInitTag = s.storeInitTag :=
  have h := State.outside_fields (State.endJob_outside s j o); h.2.2.2.2.1
@[simp] theorem State.endJob_settings (s : State) (j : JobNo) (o : JobState) : (s.endJob j o).settings = s.settings :=
  have h := State.outside_fields (State.endJob_outside s j o); h.2.2.2.2.2.1
@[simp] theorem State.endJob_interrupts (s : State) (j : JobNo) (o : JobState) : (s.endJob j o).interrupts = s.interrupts :=
  have h := State.outside_fields (State.endJob_outside s j o); h.2.2.2.2.2.2.1
@[simp] theorem State.endJob_store (s : State) (j : JobNo) (o : JobState) : (s.endJob j o).store = s.store :=
  have h := State.outside_fields (State.endJob_outside s j o); h.2.2.2.2.2.2.2.2.1
@[simp] theorem State.endJob_master (s : State) (j : JobNo) (o : JobState) : (s.endJob j o).master = s.master :=
  have h := State.outside_fields (State.endJob_outside s j o); h.2.2.2.2.2.2.2.2.2.2.1
@[simp] theorem State.endJob_inReset (s : State) (j : JobNo) (o : JobState) : (s.endJob j o).inReset = s.inReset :=
  have h := State.outside_fields (State.endJob_outside s j o); h.2.2.2.2.2.2.2.2.2.2.2.1
@[simp] theorem State.failJobOn_pending (s : State) (i : Slot) (c : JobCause) : (s.failJobOn i c).pending = s.pending :=
  have h := State.outside_fields (State.failJobOn_outside s i c); h.1
@[simp] theorem State.failJobOn_requests (s : State) (i : Slot) (c : JobCause) : (s.failJobOn i c).requests = s.requests :=
  have h := State.outside_fields (State.failJobOn_outside s i c); h.2.1
@[simp] theorem State.failJobOn_responses (s : State) (i : Slot) (c : JobCause) : (s.failJobOn i c).responses = s.responses :=
  have h := State.outside_fields (State.failJobOn_outside s i c); h.2.2.1
@[simp] theorem State.failJobOn_storeInitTag (s : State) (i : Slot) (c : JobCause) : (s.failJobOn i c).storeInitTag = s.storeInitTag :=
  have h := State.outside_fields (State.failJobOn_outside s i c); h.2.2.2.2.1
@[simp] theorem State.failJobOn_settings (s : State) (i : Slot) (c : JobCause) : (s.failJobOn i c).settings = s.settings :=
  have h := State.outside_fields (State.failJobOn_outside s i c); h.2.2.2.2.2.1
@[simp] theorem State.failJobOn_interrupts (s : State) (i : Slot) (c : JobCause) : (s.failJobOn i c).interrupts = s.interrupts :=
  have h := State.outside_fields (State.failJobOn_outside s i c); h.2.2.2.2.2.2.1
@[simp] theorem State.failJobOn_store (s : State) (i : Slot) (c : JobCause) : (s.failJobOn i c).store = s.store :=
  have h := State.outside_fields (State.failJobOn_outside s i c); h.2.2.2.2.2.2.2.2.1
@[simp] theorem State.failJobOn_master (s : State) (i : Slot) (c : JobCause) : (s.failJobOn i c).master = s.master :=
  have h := State.outside_fields (State.failJobOn_outside s i c); h.2.2.2.2.2.2.2.2.2.2.1
@[simp] theorem State.failJobOn_inReset (s : State) (i : Slot) (c : JobCause) : (s.failJobOn i c).inReset = s.inReset :=
  have h := State.outside_fields (State.failJobOn_outside s i c); h.2.2.2.2.2.2.2.2.2.2.2.1
@[simp] theorem State.linkFailure_pending (s : State) (i : Slot) : (s.linkFailure i).pending = s.pending :=
  have h := State.outside_fields (State.linkFailure_outside s i); h.1
@[simp] theorem State.linkFailure_requests (s : State) (i : Slot) : (s.linkFailure i).requests = s.requests :=
  have h := State.outside_fields (State.linkFailure_outside s i); h.2.1
@[simp] theorem State.linkFailure_responses (s : State) (i : Slot) : (s.linkFailure i).responses = s.responses :=
  have h := State.outside_fields (State.linkFailure_outside s i); h.2.2.1
@[simp] theorem State.linkFailure_storeInitTag (s : State) (i : Slot) : (s.linkFailure i).storeInitTag = s.storeInitTag :=
  have h := State.outside_fields (State.linkFailure_outside s i); h.2.2.2.2.1
@[simp] theorem State.linkFailure_settings (s : State) (i : Slot) : (s.linkFailure i).settings = s.settings :=
  have h := State.outside_fields (State.linkFailure_outside s i); h.2.2.2.2.2.1
@[simp] theorem State.linkFailure_interrupts (s : State) (i : Slot) : (s.linkFailure i).interrupts = s.interrupts :=
  have h := State.outside_fields (State.linkFailure_outside s i); h.2.2.2.2.2.2.1
@[simp] theorem State.linkFailure_store (s : State) (i : Slot) : (s.linkFailure i).store = s.store :=
  have h := State.outside_fields (State.linkFailure_outside s i); h.2.2.2.2.2.2.2.2.1
@[simp] theorem State.linkFailure_master (s : State) (i : Slot) : (s.linkFailure i).master = s.master :=
  have h := State.outside_fields (State.linkFailure_outside s i); h.2.2.2.2.2.2.2.2.2.2.1
@[simp] theorem State.linkFailure_inReset (s : State) (i : Slot) : (s.linkFailure i).inReset = s.inReset :=
  have h := State.outside_fields (State.linkFailure_outside s i); h.2.2.2.2.2.2.2.2.2.2.2.1
@[simp] theorem State.failBurst_pending (s : State) (i : Slot) (b : Burst) : (s.failBurst i b).pending = s.pending :=
  have h := State.outside_fields (State.failBurst_outside s i b); h.1
@[simp] theorem State.failBurst_requests (s : State) (i : Slot) (b : Burst) : (s.failBurst i b).requests = s.requests :=
  have h := State.outside_fields (State.failBurst_outside s i b); h.2.1
@[simp] theorem State.failBurst_responses (s : State) (i : Slot) (b : Burst) : (s.failBurst i b).responses = s.responses :=
  have h := State.outside_fields (State.failBurst_outside s i b); h.2.2.1
@[simp] theorem State.failBurst_storeInitTag (s : State) (i : Slot) (b : Burst) : (s.failBurst i b).storeInitTag = s.storeInitTag :=
  have h := State.outside_fields (State.failBurst_outside s i b); h.2.2.2.2.1
@[simp] theorem State.failBurst_settings (s : State) (i : Slot) (b : Burst) : (s.failBurst i b).settings = s.settings :=
  have h := State.outside_fields (State.failBurst_outside s i b); h.2.2.2.2.2.1
@[simp] theorem State.failBurst_interrupts (s : State) (i : Slot) (b : Burst) : (s.failBurst i b).interrupts = s.interrupts :=
  have h := State.outside_fields (State.failBurst_outside s i b); h.2.2.2.2.2.2.1
@[simp] theorem State.failBurst_store (s : State) (i : Slot) (b : Burst) : (s.failBurst i b).store = s.store :=
  have h := State.outside_fields (State.failBurst_outside s i b); h.2.2.2.2.2.2.2.2.1
@[simp] theorem State.failBurst_master (s : State) (i : Slot) (b : Burst) : (s.failBurst i b).master = s.master :=
  have h := State.outside_fields (State.failBurst_outside s i b); h.2.2.2.2.2.2.2.2.2.2.1
@[simp] theorem State.failBurst_inReset (s : State) (i : Slot) (b : Burst) : (s.failBurst i b).inReset = s.inReset :=
  have h := State.outside_fields (State.failBurst_outside s i b); h.2.2.2.2.2.2.2.2.2.2.2.1
@[simp] theorem State.dropGrant_pending (s : State) (j : JobNo) : (s.dropGrant j).pending = s.pending :=
  have h := State.outside_fields (State.dropGrant_outside s j); h.1
@[simp] theorem State.dropGrant_requests (s : State) (j : JobNo) : (s.dropGrant j).requests = s.requests :=
  have h := State.outside_fields (State.dropGrant_outside s j); h.2.1
@[simp] theorem State.dropGrant_responses (s : State) (j : JobNo) : (s.dropGrant j).responses = s.responses :=
  have h := State.outside_fields (State.dropGrant_outside s j); h.2.2.1
@[simp] theorem State.dropGrant_storeInitTag (s : State) (j : JobNo) : (s.dropGrant j).storeInitTag = s.storeInitTag :=
  have h := State.outside_fields (State.dropGrant_outside s j); h.2.2.2.2.1
@[simp] theorem State.dropGrant_settings (s : State) (j : JobNo) : (s.dropGrant j).settings = s.settings :=
  have h := State.outside_fields (State.dropGrant_outside s j); h.2.2.2.2.2.1
@[simp] theorem State.dropGrant_interrupts (s : State) (j : JobNo) : (s.dropGrant j).interrupts = s.interrupts :=
  have h := State.outside_fields (State.dropGrant_outside s j); h.2.2.2.2.2.2.1
@[simp] theorem State.dropGrant_store (s : State) (j : JobNo) : (s.dropGrant j).store = s.store :=
  have h := State.outside_fields (State.dropGrant_outside s j); h.2.2.2.2.2.2.2.2.1
@[simp] theorem State.dropGrant_master (s : State) (j : JobNo) : (s.dropGrant j).master = s.master :=
  have h := State.outside_fields (State.dropGrant_outside s j); h.2.2.2.2.2.2.2.2.2.2.1
@[simp] theorem State.dropGrant_inReset (s : State) (j : JobNo) : (s.dropGrant j).inReset = s.inReset :=
  have h := State.outside_fields (State.dropGrant_outside s j); h.2.2.2.2.2.2.2.2.2.2.2.1
@[simp] theorem State.closeGrant_pending (s : State) (j : JobNo) : (s.closeGrant j).pending = s.pending :=
  have h := State.outside_fields (State.closeGrant_outside s j); h.1
@[simp] theorem State.closeGrant_requests (s : State) (j : JobNo) : (s.closeGrant j).requests = s.requests :=
  have h := State.outside_fields (State.closeGrant_outside s j); h.2.1
@[simp] theorem State.closeGrant_responses (s : State) (j : JobNo) : (s.closeGrant j).responses = s.responses :=
  have h := State.outside_fields (State.closeGrant_outside s j); h.2.2.1
@[simp] theorem State.closeGrant_storeInitTag (s : State) (j : JobNo) : (s.closeGrant j).storeInitTag = s.storeInitTag :=
  have h := State.outside_fields (State.closeGrant_outside s j); h.2.2.2.2.1
@[simp] theorem State.closeGrant_settings (s : State) (j : JobNo) : (s.closeGrant j).settings = s.settings :=
  have h := State.outside_fields (State.closeGrant_outside s j); h.2.2.2.2.2.1
@[simp] theorem State.closeGrant_interrupts (s : State) (j : JobNo) : (s.closeGrant j).interrupts = s.interrupts :=
  have h := State.outside_fields (State.closeGrant_outside s j); h.2.2.2.2.2.2.1
@[simp] theorem State.closeGrant_store (s : State) (j : JobNo) : (s.closeGrant j).store = s.store :=
  have h := State.outside_fields (State.closeGrant_outside s j); h.2.2.2.2.2.2.2.2.1
@[simp] theorem State.closeGrant_master (s : State) (j : JobNo) : (s.closeGrant j).master = s.master :=
  have h := State.outside_fields (State.closeGrant_outside s j); h.2.2.2.2.2.2.2.2.2.2.1
@[simp] theorem State.closeGrant_inReset (s : State) (j : JobNo) : (s.closeGrant j).inReset = s.inReset :=
  have h := State.outside_fields (State.closeGrant_outside s j); h.2.2.2.2.2.2.2.2.2.2.2.1
@[simp] theorem State.freezeDrained_pending (s : State) (j : JobNo) (job : Job) : (s.freezeDrained j job).pending = s.pending :=
  have h := State.outside_fields (State.freezeDrained_outside s j job); h.1
@[simp] theorem State.freezeDrained_requests (s : State) (j : JobNo) (job : Job) : (s.freezeDrained j job).requests = s.requests :=
  have h := State.outside_fields (State.freezeDrained_outside s j job); h.2.1
@[simp] theorem State.freezeDrained_responses (s : State) (j : JobNo) (job : Job) : (s.freezeDrained j job).responses = s.responses :=
  have h := State.outside_fields (State.freezeDrained_outside s j job); h.2.2.1
@[simp] theorem State.freezeDrained_storeInitTag (s : State) (j : JobNo) (job : Job) : (s.freezeDrained j job).storeInitTag = s.storeInitTag :=
  have h := State.outside_fields (State.freezeDrained_outside s j job); h.2.2.2.2.1
@[simp] theorem State.freezeDrained_settings (s : State) (j : JobNo) (job : Job) : (s.freezeDrained j job).settings = s.settings :=
  have h := State.outside_fields (State.freezeDrained_outside s j job); h.2.2.2.2.2.1
@[simp] theorem State.freezeDrained_interrupts (s : State) (j : JobNo) (job : Job) : (s.freezeDrained j job).interrupts = s.interrupts :=
  have h := State.outside_fields (State.freezeDrained_outside s j job); h.2.2.2.2.2.2.1
@[simp] theorem State.freezeDrained_store (s : State) (j : JobNo) (job : Job) : (s.freezeDrained j job).store = s.store :=
  have h := State.outside_fields (State.freezeDrained_outside s j job); h.2.2.2.2.2.2.2.2.1
@[simp] theorem State.freezeDrained_master (s : State) (j : JobNo) (job : Job) : (s.freezeDrained j job).master = s.master :=
  have h := State.outside_fields (State.freezeDrained_outside s j job); h.2.2.2.2.2.2.2.2.2.2.1
@[simp] theorem State.freezeDrained_inReset (s : State) (j : JobNo) (job : Job) : (s.freezeDrained j job).inReset = s.inReset :=
  have h := State.outside_fields (State.freezeDrained_outside s j job); h.2.2.2.2.2.2.2.2.2.2.2.1
@[simp] theorem State.freeze_pending (s : State) (j : JobNo) (job : Job) : (s.freeze j job).pending = s.pending :=
  have h := State.outside_fields (State.freeze_outside s j job); h.1
@[simp] theorem State.freeze_requests (s : State) (j : JobNo) (job : Job) : (s.freeze j job).requests = s.requests :=
  have h := State.outside_fields (State.freeze_outside s j job); h.2.1
@[simp] theorem State.freeze_responses (s : State) (j : JobNo) (job : Job) : (s.freeze j job).responses = s.responses :=
  have h := State.outside_fields (State.freeze_outside s j job); h.2.2.1
@[simp] theorem State.freeze_storeInitTag (s : State) (j : JobNo) (job : Job) : (s.freeze j job).storeInitTag = s.storeInitTag :=
  have h := State.outside_fields (State.freeze_outside s j job); h.2.2.2.2.1
@[simp] theorem State.freeze_settings (s : State) (j : JobNo) (job : Job) : (s.freeze j job).settings = s.settings :=
  have h := State.outside_fields (State.freeze_outside s j job); h.2.2.2.2.2.1
@[simp] theorem State.freeze_interrupts (s : State) (j : JobNo) (job : Job) : (s.freeze j job).interrupts = s.interrupts :=
  have h := State.outside_fields (State.freeze_outside s j job); h.2.2.2.2.2.2.1
@[simp] theorem State.freeze_store (s : State) (j : JobNo) (job : Job) : (s.freeze j job).store = s.store :=
  have h := State.outside_fields (State.freeze_outside s j job); h.2.2.2.2.2.2.2.2.1
@[simp] theorem State.freeze_master (s : State) (j : JobNo) (job : Job) : (s.freeze j job).master = s.master :=
  have h := State.outside_fields (State.freeze_outside s j job); h.2.2.2.2.2.2.2.2.2.2.1
@[simp] theorem State.freeze_inReset (s : State) (j : JobNo) (job : Job) : (s.freeze j job).inReset = s.inReset :=
  have h := State.outside_fields (State.freeze_outside s j job); h.2.2.2.2.2.2.2.2.2.2.2.1
@[simp] theorem State.evaluate_pending (s : State) (j : JobNo) (job : Job) : (s.evaluate j job).pending = s.pending :=
  have h := State.outside_fields (State.evaluate_outside s j job); h.1
@[simp] theorem State.evaluate_requests (s : State) (j : JobNo) (job : Job) : (s.evaluate j job).requests = s.requests :=
  have h := State.outside_fields (State.evaluate_outside s j job); h.2.1
@[simp] theorem State.evaluate_responses (s : State) (j : JobNo) (job : Job) : (s.evaluate j job).responses = s.responses :=
  have h := State.outside_fields (State.evaluate_outside s j job); h.2.2.1
@[simp] theorem State.evaluate_storeInitTag (s : State) (j : JobNo) (job : Job) : (s.evaluate j job).storeInitTag = s.storeInitTag :=
  have h := State.outside_fields (State.evaluate_outside s j job); h.2.2.2.2.1
@[simp] theorem State.evaluate_settings (s : State) (j : JobNo) (job : Job) : (s.evaluate j job).settings = s.settings :=
  have h := State.outside_fields (State.evaluate_outside s j job); h.2.2.2.2.2.1
@[simp] theorem State.evaluate_interrupts (s : State) (j : JobNo) (job : Job) : (s.evaluate j job).interrupts = s.interrupts :=
  have h := State.outside_fields (State.evaluate_outside s j job); h.2.2.2.2.2.2.1
@[simp] theorem State.evaluate_store (s : State) (j : JobNo) (job : Job) : (s.evaluate j job).store = s.store :=
  have h := State.outside_fields (State.evaluate_outside s j job); h.2.2.2.2.2.2.2.2.1
@[simp] theorem State.evaluate_master (s : State) (j : JobNo) (job : Job) : (s.evaluate j job).master = s.master :=
  have h := State.outside_fields (State.evaluate_outside s j job); h.2.2.2.2.2.2.2.2.2.2.1
@[simp] theorem State.evaluate_inReset (s : State) (j : JobNo) (job : Job) : (s.evaluate j job).inReset = s.inReset :=
  have h := State.outside_fields (State.evaluate_outside s j job); h.2.2.2.2.2.2.2.2.2.2.2.1
@[simp] theorem State.endOfWork_pending (s : State) (j : JobNo) : (s.endOfWork j).pending = s.pending :=
  have h := State.outside_fields (State.endOfWork_outside s j); h.1
@[simp] theorem State.endOfWork_requests (s : State) (j : JobNo) : (s.endOfWork j).requests = s.requests :=
  have h := State.outside_fields (State.endOfWork_outside s j); h.2.1
@[simp] theorem State.endOfWork_responses (s : State) (j : JobNo) : (s.endOfWork j).responses = s.responses :=
  have h := State.outside_fields (State.endOfWork_outside s j); h.2.2.1
@[simp] theorem State.endOfWork_storeInitTag (s : State) (j : JobNo) : (s.endOfWork j).storeInitTag = s.storeInitTag :=
  have h := State.outside_fields (State.endOfWork_outside s j); h.2.2.2.2.1
@[simp] theorem State.endOfWork_settings (s : State) (j : JobNo) : (s.endOfWork j).settings = s.settings :=
  have h := State.outside_fields (State.endOfWork_outside s j); h.2.2.2.2.2.1
@[simp] theorem State.endOfWork_interrupts (s : State) (j : JobNo) : (s.endOfWork j).interrupts = s.interrupts :=
  have h := State.outside_fields (State.endOfWork_outside s j); h.2.2.2.2.2.2.1
@[simp] theorem State.endOfWork_store (s : State) (j : JobNo) : (s.endOfWork j).store = s.store :=
  have h := State.outside_fields (State.endOfWork_outside s j); h.2.2.2.2.2.2.2.2.1
@[simp] theorem State.endOfWork_master (s : State) (j : JobNo) : (s.endOfWork j).master = s.master :=
  have h := State.outside_fields (State.endOfWork_outside s j); h.2.2.2.2.2.2.2.2.2.2.1
@[simp] theorem State.endOfWork_inReset (s : State) (j : JobNo) : (s.endOfWork j).inReset = s.inReset :=
  have h := State.outside_fields (State.endOfWork_outside s j); h.2.2.2.2.2.2.2.2.2.2.2.1
@[simp] theorem State.endRound_pending (s : State) (j : JobNo) (job : Job) : (s.endRound j job).pending = s.pending :=
  have h := State.outside_fields (State.endRound_outside s j job); h.1
@[simp] theorem State.endRound_requests (s : State) (j : JobNo) (job : Job) : (s.endRound j job).requests = s.requests :=
  have h := State.outside_fields (State.endRound_outside s j job); h.2.1
@[simp] theorem State.endRound_responses (s : State) (j : JobNo) (job : Job) : (s.endRound j job).responses = s.responses :=
  have h := State.outside_fields (State.endRound_outside s j job); h.2.2.1
@[simp] theorem State.endRound_storeInitTag (s : State) (j : JobNo) (job : Job) : (s.endRound j job).storeInitTag = s.storeInitTag :=
  have h := State.outside_fields (State.endRound_outside s j job); h.2.2.2.2.1
@[simp] theorem State.endRound_settings (s : State) (j : JobNo) (job : Job) : (s.endRound j job).settings = s.settings :=
  have h := State.outside_fields (State.endRound_outside s j job); h.2.2.2.2.2.1
@[simp] theorem State.endRound_interrupts (s : State) (j : JobNo) (job : Job) : (s.endRound j job).interrupts = s.interrupts :=
  have h := State.outside_fields (State.endRound_outside s j job); h.2.2.2.2.2.2.1
@[simp] theorem State.endRound_store (s : State) (j : JobNo) (job : Job) : (s.endRound j job).store = s.store :=
  have h := State.outside_fields (State.endRound_outside s j job); h.2.2.2.2.2.2.2.2.1
@[simp] theorem State.endRound_master (s : State) (j : JobNo) (job : Job) : (s.endRound j job).master = s.master :=
  have h := State.outside_fields (State.endRound_outside s j job); h.2.2.2.2.2.2.2.2.2.2.1
@[simp] theorem State.endRound_inReset (s : State) (j : JobNo) (job : Job) : (s.endRound j job).inReset = s.inReset :=
  have h := State.outside_fields (State.endRound_outside s j job); h.2.2.2.2.2.2.2.2.2.2.2.1
@[simp] theorem State.verifyAnswer_pending (s : State) (j : JobNo) (job : Job) (segment : Nat) (d : Word32) : (s.verifyAnswer j job segment d).pending = s.pending :=
  have h := State.outside_fields (State.verifyAnswer_outside s j job segment d); h.1
@[simp] theorem State.verifyAnswer_requests (s : State) (j : JobNo) (job : Job) (segment : Nat) (d : Word32) : (s.verifyAnswer j job segment d).requests = s.requests :=
  have h := State.outside_fields (State.verifyAnswer_outside s j job segment d); h.2.1
@[simp] theorem State.verifyAnswer_responses (s : State) (j : JobNo) (job : Job) (segment : Nat) (d : Word32) : (s.verifyAnswer j job segment d).responses = s.responses :=
  have h := State.outside_fields (State.verifyAnswer_outside s j job segment d); h.2.2.1
@[simp] theorem State.verifyAnswer_storeInitTag (s : State) (j : JobNo) (job : Job) (segment : Nat) (d : Word32) : (s.verifyAnswer j job segment d).storeInitTag = s.storeInitTag :=
  have h := State.outside_fields (State.verifyAnswer_outside s j job segment d); h.2.2.2.2.1
@[simp] theorem State.verifyAnswer_settings (s : State) (j : JobNo) (job : Job) (segment : Nat) (d : Word32) : (s.verifyAnswer j job segment d).settings = s.settings :=
  have h := State.outside_fields (State.verifyAnswer_outside s j job segment d); h.2.2.2.2.2.1
@[simp] theorem State.verifyAnswer_interrupts (s : State) (j : JobNo) (job : Job) (segment : Nat) (d : Word32) : (s.verifyAnswer j job segment d).interrupts = s.interrupts :=
  have h := State.outside_fields (State.verifyAnswer_outside s j job segment d); h.2.2.2.2.2.2.1
@[simp] theorem State.verifyAnswer_store (s : State) (j : JobNo) (job : Job) (segment : Nat) (d : Word32) : (s.verifyAnswer j job segment d).store = s.store :=
  have h := State.outside_fields (State.verifyAnswer_outside s j job segment d); h.2.2.2.2.2.2.2.2.1
@[simp] theorem State.verifyAnswer_master (s : State) (j : JobNo) (job : Job) (segment : Nat) (d : Word32) : (s.verifyAnswer j job segment d).master = s.master :=
  have h := State.outside_fields (State.verifyAnswer_outside s j job segment d); h.2.2.2.2.2.2.2.2.2.2.1
@[simp] theorem State.verifyAnswer_inReset (s : State) (j : JobNo) (job : Job) (segment : Nat) (d : Word32) : (s.verifyAnswer j job segment d).inReset = s.inReset :=
  have h := State.outside_fields (State.verifyAnswer_outside s j job segment d); h.2.2.2.2.2.2.2.2.2.2.2.1
@[simp] theorem State.reportRetired_pending (s : State) (j : JobNo) (frames : List Frame) (d : Option Word32) : (s.reportRetired j frames d).pending = s.pending :=
  have h := State.outside_fields (State.reportRetired_outside s j frames d); h.1
@[simp] theorem State.reportRetired_requests (s : State) (j : JobNo) (frames : List Frame) (d : Option Word32) : (s.reportRetired j frames d).requests = s.requests :=
  have h := State.outside_fields (State.reportRetired_outside s j frames d); h.2.1
@[simp] theorem State.reportRetired_responses (s : State) (j : JobNo) (frames : List Frame) (d : Option Word32) : (s.reportRetired j frames d).responses = s.responses :=
  have h := State.outside_fields (State.reportRetired_outside s j frames d); h.2.2.1
@[simp] theorem State.reportRetired_storeInitTag (s : State) (j : JobNo) (frames : List Frame) (d : Option Word32) : (s.reportRetired j frames d).storeInitTag = s.storeInitTag :=
  have h := State.outside_fields (State.reportRetired_outside s j frames d); h.2.2.2.2.1
@[simp] theorem State.reportRetired_settings (s : State) (j : JobNo) (frames : List Frame) (d : Option Word32) : (s.reportRetired j frames d).settings = s.settings :=
  have h := State.outside_fields (State.reportRetired_outside s j frames d); h.2.2.2.2.2.1
@[simp] theorem State.reportRetired_interrupts (s : State) (j : JobNo) (frames : List Frame) (d : Option Word32) : (s.reportRetired j frames d).interrupts = s.interrupts :=
  have h := State.outside_fields (State.reportRetired_outside s j frames d); h.2.2.2.2.2.2.1
@[simp] theorem State.reportRetired_store (s : State) (j : JobNo) (frames : List Frame) (d : Option Word32) : (s.reportRetired j frames d).store = s.store :=
  have h := State.outside_fields (State.reportRetired_outside s j frames d); h.2.2.2.2.2.2.2.2.1
@[simp] theorem State.reportRetired_master (s : State) (j : JobNo) (frames : List Frame) (d : Option Word32) : (s.reportRetired j frames d).master = s.master :=
  have h := State.outside_fields (State.reportRetired_outside s j frames d); h.2.2.2.2.2.2.2.2.2.2.1
@[simp] theorem State.reportRetired_inReset (s : State) (j : JobNo) (frames : List Frame) (d : Option Word32) : (s.reportRetired j frames d).inReset = s.inReset :=
  have h := State.outside_fields (State.reportRetired_outside s j frames d); h.2.2.2.2.2.2.2.2.2.2.2.1

end Sys2Proof.Machine
end

