-- ==== Sys2Proof/Laws/Requests.lean ====
section
/-! SUPPORT. What the request handler and the reset gate do with a command: `takeRequest` runs its decision exactly on an offered
request, and `unlessReset` runs its command exactly outside reset (08, R177 and R188). -/

namespace Sys2Proof.Machine

/-- In reset a gated command changes nothing. -/
theorem State.unlessReset_held (s : State) (f : State → State) (h : s.inReset = true) : s.unlessReset f = s := by
  simp [State.unlessReset, h]

/-- Outside reset a gated command runs. -/
theorem State.unlessReset_run (s : State) (f : State → State) (h : s.inReset = false) : s.unlessReset f = f s := by
  simp [State.unlessReset, h]

/-- Outside reset neither reset source stands. -/
theorem State.inReset_false {s : State} (h : s.inReset = false) : s.powerOnReset = false ∧ s.pinAsserted = false := by
  simpa [State.inReset] using h

/-- In reset the handler takes nothing. -/
theorem State.takeRequest_held (s : State) (isKind : Byte → Bool) (f : State → List Byte → State)
    (h : s.inReset = true) : s.takeRequest isKind f = s := by
  unfold State.takeRequest
  split <;> simp [h]

/-- An offered request of the command's kind leaves the queue and is decided. -/
theorem State.takeRequest_offers {s : State} {code : Byte} {m : List Byte} {rest : List (List Byte)}
    {isKind : Byte → Bool} {f : State → List Byte → State} (h : s.Offers code m rest) (hk : isKind code = true) :
    s.takeRequest isKind f = f { s with requests := rest } m := by
  obtain ⟨h1, h2, h3, h4⟩ := h
  have room : 0 < s.freeEntries := by simp only [State.freeEntries, Config.responseCapacity]; omega
  unfold State.takeRequest
  rw [h2]
  simp [h1, kindOf, h4, hk, room]

/-- All that `takeRequest` can do: take nothing, or decide the request at the head. -/
theorem State.takeRequest_cases (s : State) (isKind : Byte → Bool) (f : State → List Byte → State) :
    s.takeRequest isKind f = s ∨
    ∃ m rest, s.Offers (kindOf m) m rest ∧ isKind (kindOf m) = true ∧
      s.takeRequest isKind f = f { s with requests := rest } m := by
  unfold State.takeRequest
  split
  · exact .inl rfl
  · next m rest e =>
    split
    · next h =>
      refine .inr ⟨m, rest, ⟨h.1, e, ?_, rfl⟩, h.2.2, rfl⟩
      have := h.2.1
      simp only [State.freeEntries, Config.responseCapacity] at this
      omega
    · exact .inl rfl

end Sys2Proof.Machine
end

