-- ==== Sys2Proof/Laws/Verdicts.lean ====
section
/-! SUPPORT. The decisions on table changes (02, R25 to R31): what an admission means for the store and for the lanes and jobs,
and all that a command can do to the record store. -/

namespace Sys2Proof.Machine

/-! ### The checks -/

theorem mem_allSlots (i : Slot) : i ∈ allSlots := by revert i; decide

theorem mem_allJobs (j : JobNo) : j ∈ allJobs := by revert j; decide

/-- Check 3 is the statements' `FreezeOn` (02, R27). -/
theorem State.frozenKind_iff (s : State) (k : Kind) : s.frozenKind k = true ↔ s.FreezeOn k := by
  unfold State.frozenKind State.FreezeOn
  rw [List.any_eq_true]
  constructor
  · rintro ⟨j, _, h⟩
    rcases e : s.job j with _ | job
    · simp [e] at h
    · simp only [e, Bool.and_eq_true] at h
      refine ⟨j, job, e, ?_, h.2⟩
      revert h
      cases job.state <;> simp [JobState.frozen]
  · rintro ⟨j, job, e, hs, ha⟩
    refine ⟨j, mem_allJobs j, ?_⟩
    simp only [e, ha, Bool.and_true]
    rcases hs with hs | hs <;> simp [hs, JobState.frozen]

/-- Check 4 is the statements' `QueueFullOn` (02, R28). -/
theorem State.backlogged_iff (s : State) (k : Kind) : s.backlogged k = true ↔ s.QueueFullOn k := by
  unfold State.backlogged State.QueueFullOn
  rw [List.any_eq_true]
  constructor
  · rintro ⟨i, _, h⟩
    simp only [Bool.and_eq_true, decide_eq_true_eq] at h
    exact ⟨i, h.1.1, h.1.2, h.2⟩
  · rintro ⟨i, h1, h2, h3⟩
    refine ⟨i, mem_allSlots i, ?_⟩
    simp only [Bool.and_eq_true, decide_eq_true_eq]
    exact ⟨⟨h1, h2⟩, h3⟩

/-- What passes checks 1 to 4. -/
theorem State.admissionChecks_ok {α : Type} {s : State} {carried : Option α} {kind : α → Kind} {x : α}
    (h : s.admissionChecks carried kind = .ok x) :
    s.store.phase = .initialized ∧ carried = some x ∧ ¬ s.FreezeOn (kind x) ∧ ¬ s.QueueFullOn (kind x) := by
  unfold State.admissionChecks at h
  split at h
  · cases h
  · next hp =>
    split at h
    · cases h
    · split at h
      · cases h
      · next hf =>
        split at h
        · cases h
        · next hb =>
          cases h
          exact ⟨Decidable.not_not.1 hp, rfl, mt (s.frozenKind_iff _).2 hf, mt (s.backlogged_iff _).2 hb⟩

/-- The checks pass exactly what R25 to R28 let through. -/
theorem State.admissionChecks_pass {α : Type} {s : State} {kind : α → Kind} {x : α} (hp : s.store.phase = .initialized)
    (hf : ¬ s.FreezeOn (kind x)) (hb : ¬ s.QueueFullOn (kind x)) : s.admissionChecks (some x) kind = .ok x := by
  have f := mt (s.frozenKind_iff _).1 hf
  have b := mt (s.backlogged_iff _).1 hb
  simp [State.admissionChecks, hp, f, b]

/-! ### The decisions -/

/-- What an INSERT that is admitted has met (02, R29). -/
theorem State.insertVerdict_ok {s : State} {m : List Byte} {r : Record} {row : Nat}
    (h : s.insertVerdict m = .ok (r, row)) :
    s.store.phase = .initialized ∧ requestRecord m = some r ∧ ¬ s.FreezeOn r.key.kind ∧ ¬ s.QueueFullOn r.key.kind ∧
      s.store.lookup r.key = none ∧ s.store.topRow = some row ∧ s.store.canPlace r.key = true := by
  unfold State.insertVerdict at h
  split at h
  · cases h
  · next q hq =>
    split at h
    · cases h
    · next hl =>
      split at h
      · cases h
      · next ht =>
        split at h
        · next hc =>
          cases h
          obtain ⟨a, b, c, d⟩ := State.admissionChecks_ok hq
          exact ⟨a, b, c, d, by simpa using hl, ht, hc⟩
        · cases h

/-- What an UPDATE that is admitted has met (02, R30). -/
theorem State.updateVerdict_ok {s : State} {m : List Byte} {r old : Record} {row : Nat}
    (h : s.updateVerdict m = .ok (row, old, r)) :
    s.store.phase = .initialized ∧ requestRecord m = some r ∧ ¬ s.FreezeOn r.key.kind ∧ ¬ s.QueueFullOn r.key.kind ∧
      s.store.lookup r.key = some row ∧ s.store.row row = some old := by
  unfold State.updateVerdict at h
  split at h
  · cases h
  · next q hq =>
    split at h
    · cases h
    · next hl =>
      split at h
      · cases h
      · next hr =>
        cases h
        obtain ⟨a, b, c, d⟩ := State.admissionChecks_ok hq
        exact ⟨a, b, c, d, hl, hr⟩

/-- What a RETIRE that is admitted has met (02, R31). -/
theorem State.retireVerdict_ok {s : State} {m : List Byte} {k : Key} {old : Record} {row : Nat}
    (h : s.retireVerdict m = .ok (k, row, old)) :
    s.store.phase = .initialized ∧ requestKey m = some k ∧ ¬ s.FreezeOn k.kind ∧ ¬ s.QueueFullOn k.kind ∧
      s.store.lookup k = some row ∧ s.store.row row = some old := by
  unfold State.retireVerdict at h
  split at h
  · cases h
  · next q hq =>
    split at h
    · cases h
    · next hl =>
      split at h
      · cases h
      · next hr =>
        cases h
        obtain ⟨a, b, c, d⟩ := State.admissionChecks_ok hq
        exact ⟨a, b, c, d, hl, hr⟩

/-! ### The admission event -/

/-- One enqueue in closed form (05, R99, R101 and R103). -/
theorem Lane.enqueue_eq (set : Settings) (l : Lane) (e : ApplyEntry) : l.enqueue set e = l.enqueued set.threshold e := by
  unfold Lane.enqueue Lane.enqueued Lane.testRaise
  simp only [Live.depth, List.length_append, List.length_singleton]
  rcases ha : l.live.alarm with _ | _
  · by_cases h : set.threshold < l.live.queue.length + 1
    · simp [h]
    · simp [h]
  · simp

/-- What an admission places on a lane, in closed form (02, R33). -/
theorem Lane.feed_eq (set : Settings) (k : Kind) (entry : Profile → Option ApplyEntry) (l : Lane) :
    l.feed set k entry = l.admitted set.threshold k entry := by
  unfold Lane.feed Lane.admitted
  split
  · cases entry l.profile <;> simp only [Lane.enqueue_eq]
  · rfl

/-- The offer of a row to a job, in closed form (06, R133 and R135). -/
theorem Job.offer_eq (k : Kind) (row : Nat) (j : Job) : Job.offer k row j = j.offered k row := by
  unfold Job.offer Job.offered Job.addArrival saturate
  cases hp : j.profile.accepts k
  · simp
  · cases hs : j.state <;> simp only [if_true, true_and, reduceCtorEq, false_and, or_false, false_or, if_false]
    · by_cases h : row < j.sweepCursor <;> by_cases h' : row ∈ j.dirty <;> simp [h, h', Config.saturation]
    · by_cases h' : row ∈ j.dirty <;> simp [h', Config.saturation]

/-- The admission event is the statements' `admission`. -/
theorem State.applyChange_eq (s : State) (store : Store) (k : Kind) (row : Nat) (entry : Profile → Option ApplyEntry) :
    s.applyChange store k row entry = s.admission store k row entry := by
  have f : Lane.feed s.settings k entry = Lane.admitted s.settings.threshold k entry :=
    funext fun l => Lane.feed_eq s.settings k entry l
  have g : Job.offer k row = Job.offered k row := funext fun j => Job.offer_eq k row j
  simp only [State.applyChange, State.admission, State.mapLanes, State.mapJobs, mapVector_eq_map, f, g]

@[simp] theorem State.applyChange_store (s : State) (store : Store) (k : Kind) (row : Nat) (entry : Profile → Option ApplyEntry) :
    (s.applyChange store k row entry).store = store := by
  simp [State.applyChange]

end Sys2Proof.Machine
end

