-- ==== Sys2Proof/Laws/Lanes.lean ====
section
/-! SUPPORT. The lane, transmitter, master and job operations in the closed forms that statements use: one lemma for each shared
operation (03, 04, 05, 06). -/

namespace Sys2Proof.Machine

/-! ### The transmitter and live state -/

/-- Taking a burst (04, R82). -/
theorem Transmitter.take_eq (t : Transmitter) (frames : List Frame) (client : Client) (snapshot : Option Word32) :
    t.take frames client snapshot = t.taken frames client snapshot := rfl

/-- Giving a burst up (04, R84, R86 and R89). -/
theorem Transmitter.release_eq (t : Transmitter) : t.release = t.cleared := rfl

/-- Tearing the live state down (05, R115). -/
theorem Live.teardown_eq (v : Live) : v.teardown = v.ended := rfl

/-! ### Timers and attempts -/

/-- A timer's expiry is due exactly when the timer runs with no time left (log 2). -/
@[simp] theorem Timer.ranOut_iff (t : Timer) : Timer.ranOut t = true ↔ t = some 0 := by simp [Timer.ranOut]

/-- The attempt in progress is on the head slot's bus (03, R60 and R61). -/
theorem IdMaster.attempting_iff (m : IdMaster) (i : Slot) :
    m.attempting = some i ↔ m.phase = .attempt ∧ m.fifo.head? = some i := by
  unfold IdMaster.attempting
  split <;> simp_all

/-! ### Lane transitions -/

/-- What a lane abandons as it leaves its state. -/
theorem Lane.abandon_eq (l : Lane) : l.abandon = l.stripped := by
  unfold Lane.abandon Lane.stripped
  rcases l with ⟨state⟩
  cases state <;> rfl

/-- Leaving a state for another marks the notice. -/
theorem Lane.goto_eq (l : Lane) (state : LaneState) : l.goto state = { l with state, mark := true } := rfl

theorem Lane.abandon_goto_eq (l : Lane) (state : LaneState) (cause : Option LaneCause) :
    { l.abandon.goto state with cause } = l.moved state cause := by
  rw [Lane.abandon_eq]; rfl

/-- A lane that leaves its state without a new cause keeps the cause it had. -/
theorem Lane.abandon_goto_keep (l : Lane) (state : LaneState) : l.abandon.goto state = l.moved state l.cause := by
  rw [← Lane.abandon_goto_eq]
  unfold Lane.abandon Lane.goto
  cases l.state <;> rfl

/-- FAULTED (03, R56). -/
theorem Lane.fault_eq (l : Lane) (cause : LaneCause) : l.fault cause = l.moved .faulted (some cause) :=
  l.abandon_goto_eq _ _

/-- EXTRACTING (03, R52). -/
theorem Lane.extract_eq (l : Lane) : l.extract = l.moved .extracting (some .extraction) := l.abandon_goto_eq _ _

/-- EMPTY (03, R53 and R57). -/
theorem Lane.vacate_eq (l : Lane) (cause : Option LaneCause) : l.vacate cause = l.cleared .empty cause := by
  unfold Lane.vacate Lane.cleared
  rw [← Lane.abandon_goto_eq]

/-- IDENTIFYING (03, R51). -/
theorem Lane.identify_eq (l : Lane) : l.identify = l.cleared .identifying none := by
  unfold Lane.identify Lane.cleared
  rw [← Lane.abandon_goto_eq]

/-! ### Training -/

/-- The start of an ALIGN step (03, R67 and R68). -/
theorem Lane.beginAlign_eq (l : Lane) : l.beginAlign = l.aligning l.attempt := by
  unfold Lane.beginAlign Lane.sendAlign Lane.aligning
  simp only []
  by_cases h : l.tx.phase = .idle <;> simp only [h, if_true, if_false] <;> rfl

/-- The start of an attempt's ALIGN step. -/
theorem Lane.beginAlign_attempt (l : Lane) (n : Nat) : Lane.beginAlign { l with attempt := n } = l.aligning n := by
  rw [Lane.beginAlign_eq]; rfl

/-! ### The identification master -/

/-- Joining the FIFO (03, R60). -/
theorem IdMaster.append_eq (m : IdMaster) (i : Slot) : m.append i = m.appended i := by
  unfold IdMaster.append IdMaster.appended IdMaster.serve
  split <;> simp

/-- The next slot's turn (03, R60). -/
theorem IdMaster.serve_eq (m : IdMaster) (rest : List Slot) : m.serve rest = IdMaster.nextServed rest m.abandoned := rfl

/-- The head leaves the FIFO. -/
theorem IdMaster.remove_head {m : IdMaster} {i : Slot} {rest : List Slot} (h : m.fifo = i :: rest) :
    m.remove i = IdMaster.nextServed rest m.abandoned := by
  unfold IdMaster.remove
  rw [h]
  simp [IdMaster.serve_eq]

/-- A slot behind the head leaves the FIFO. -/
theorem IdMaster.remove_behind {m : IdMaster} {i head : Slot} {rest : List Slot} (h : m.fifo = head :: rest)
    (hne : head ≠ i) : m.remove i = { m with fifo := head :: rest.erase i } := by
  unfold IdMaster.remove
  rw [h]
  simp [hne]

/-- The head leaves the FIFO by a seating event (03, R66). -/
theorem IdMaster.abandon_head {m : IdMaster} {i : Slot} {rest : List Slot} (h : m.fifo = i :: rest) :
    m.abandon i = IdMaster.nextServed rest (m.abandoned || decide (m.phase = .attempt)) := by
  have : decide (m.attempting = some i) = decide (m.phase = .attempt) := by
    rw [decide_eq_decide, IdMaster.attempting_iff, h]
    simp
  unfold IdMaster.abandon
  rw [IdMaster.remove_head h, this]
  rfl

/-- A slot behind the head leaves the FIFO by a seating event (03, R66): no attempt is abandoned. -/
theorem IdMaster.abandon_behind {m : IdMaster} {i head : Slot} {rest : List Slot} (h : m.fifo = head :: rest)
    (hne : head ≠ i) : m.abandon i = { m with fifo := head :: rest.erase i } := by
  have : decide (m.attempting = some i) = false := by
    rw [decide_eq_false_iff_not, IdMaster.attempting_iff, h]
    simp [hne]
  unfold IdMaster.abandon
  rw [IdMaster.remove_behind h hne, this, Bool.or_false]

/-- An abandonment leaves the FIFO, the phase and the counts as any leaving of the FIFO does. -/
@[simp] theorem IdMaster.abandon_fifo (m : IdMaster) (i : Slot) : (m.abandon i).fifo = (m.remove i).fifo := rfl
@[simp] theorem IdMaster.abandon_phase (m : IdMaster) (i : Slot) : (m.abandon i).phase = (m.remove i).phase := rfl
@[simp] theorem IdMaster.abandon_nacks (m : IdMaster) (i : Slot) : (m.abandon i).nacks = (m.remove i).nacks := rfl
@[simp] theorem IdMaster.abandon_losses (m : IdMaster) (i : Slot) : (m.abandon i).losses = (m.remove i).losses := rfl

/-! ### Jobs -/

/-- A job at its outcome (06, R142). -/
theorem Job.finish_eq (j : Job) (outcome : JobState) : j.finish outcome = j.ended outcome := rfl

/-- An entry targets the slot exactly when the statements say so. -/
theorem State.targets_iff (s : State) (i : Slot) (j : JobNo) : targets i (s.job j) = true ↔ s.TargetedBy i j := by
  unfold targets State.TargetedBy
  rcases s.job j with _ | job <;> simp

/-- No job targets the slot. -/
theorem State.jobOn_eq_none_iff (s : State) (i : Slot) : s.jobOn i = none ↔ ∀ j, ¬ s.TargetedBy i j := by
  unfold State.jobOn
  rw [List.find?_eq_none]
  exact ⟨fun h j => (State.targets_iff s i j).not.1 (h j (mem_allJobs j)), fun h j _ => (State.targets_iff s i j).not.2 (h j)⟩

/-- What `jobOn` finds targets the slot. -/
theorem State.jobOn_targets {s : State} {i : Slot} {j : JobNo} (h : s.jobOn i = some j) : s.TargetedBy i j :=
  (State.targets_iff s i j).1 (List.find?_some (p := fun j => targets i (s.job j)) h)

/-- The one job that targets the slot is found. -/
theorem State.jobOn_eq_some {s : State} {i : Slot} {j : JobNo} (h : s.TargetedBy i j) (u : ∀ k, s.TargetedBy i k → k = j) :
    s.jobOn i = some j := by
  rcases e : s.jobOn i with _ | k
  · exact absurd h ((State.jobOn_eq_none_iff s i).1 e j)
  · rw [u k (State.jobOn_targets e)]

/-- The end of a job in closed form (06, R142): the entry, its grant, and the lane. -/
theorem State.endJob_eq {s : State} {j : JobNo} {job : Job} (h : s.job j = some job) (outcome : JobState) :
    s.endJob j outcome =
      { s with
        jobs := s.jobs.set j (some (job.ended outcome))
        grant := if s.granted j then none else s.grant
        lanes := s.lanes.set job.slot ((s.lane job.slot).jobEnded outcome s.settings.interval) } := by
  unfold State.endJob
  rw [h]
  by_cases g : s.granted j = true
  · have g' : (s.setJob j (some (job.finish outcome))).granted j = true := g
    simp only [State.dropGrant, g, g', if_true]
    rfl
  · have g' : ¬ (s.setJob j (some (job.finish outcome))).granted j = true := g
    simp only [State.dropGrant, g, g']
    rfl

/-- A lane out of LOADING is left by its job's end. -/
theorem Lane.jobEnded_of_ne {l : Lane} (h : l.state ≠ .loading) (outcome : JobState) (interval : Nat) :
    l.jobEnded outcome interval = l := by
  simp [Lane.jobEnded, h]

/-- A LOADING lane whose job does not complete goes to READY with its cause kept (03, R55). -/
theorem Lane.jobEnded_loading {l : Lane} (h : l.state = .loading) {outcome : JobState} (ho : outcome ≠ .completed)
    (interval : Nat) : l.jobEnded outcome interval = l.moved .ready l.cause := by
  simp only [Lane.jobEnded, h, if_true, ho, if_false]
  exact l.abandon_goto_keep _

/-- A LOADING lane whose job completes goes LIVE (05, R114). -/
theorem Lane.jobEnded_live {l : Lane} (h : l.state = .loading) (interval : Nat) :
    l.jobEnded .completed interval = { l with state := .live, mark := true, live := Live.start interval } := by
  simp [Lane.jobEnded, h, Lane.enterLive, Lane.goto_eq]

/-- A job on a lane that has left LOADING fails: the statements' `jobLost` (06, R140 and R141). -/
theorem State.failJobOn_eq {s : State} {i : Slot} {j : JobNo} {job : Job} (hl : (s.lane i).state ≠ .loading)
    (ht : s.TargetedBy i j) (hj : s.job j = some job) (u : ∀ k, s.TargetedBy i k → k = j) (cause : JobCause) :
    s.failJobOn i cause = s.jobLost j job cause := by
  unfold State.failJobOn
  rw [State.jobOn_eq_some ht u]
  simp only [State.endJob_eq hj, State.jobLost]
  obtain ⟨job', e, _, hs⟩ := ht
  rw [hj] at e
  cases e
  subst hs
  rw [Lane.jobEnded_of_ne hl]
  have e : s.lanes.set job.slot (s.lane job.slot) = s.lanes := congrArg State.lanes (State.setLane_lane s job.slot)
  rw [e]

end Sys2Proof.Machine
end

