-- ==== Sys2Proof/Laws/Arbiter.lean ====
section
/-! SUPPORT. The store-read arbiter (06, R124 to R126): all that it can do, and what it leaves of lanes and jobs. -/

namespace Sys2Proof.Machine

/-- The frames a grant begins with (06, R124). -/
def Job.openingFrames (j : Job) : List Frame :=
  match j.state with
  | .wipe => [.wipe]
  | .verify => [.verify j.verifySegment]
  | _ => []

/-- The entry as its grant begins: in VERIFY the verify segment has advanced (07, R166). -/
def Job.opened (j : Job) : Job :=
  match j.state with
  | .verify => { j with verifySegment := j.verifySegment + 1 }
  | _ => j

/-- The beginning of a grant in closed form. -/
theorem State.beginGrant_eq {s : State} {j : JobNo} {job : Job} (h : s.job j = some job) :
    s.beginGrant j =
      { s.setJob j (some job.opened) with
        grant := some { job := j, frames := job.openingFrames, examined := 0, closed := false } } := by
  have same : s.setJob j (some job) = s := by
    have e : s.jobs.set j (some job) = s.jobs := by
      rw [← h]
      ext k hk
      by_cases e : (j : Nat) = k <;> simp [State.job, e]
    simp only [State.setJob, e]
  unfold State.beginGrant
  rw [h]
  unfold Job.opened Job.openingFrames
  cases hs : job.state <;> simp only [hs, same]

/-- A search that finds nothing has looked at every job. -/
theorem searchJobs_none {p : JobNo} {test : JobNo → Bool} (h : searchJobs p test = none) (j : JobNo) : test j = false := by
  unfold searchJobs at h
  have mem : ∀ p j : JobNo, j ∈ [p, p + 1, p + 2, p + 3] := by decide
  simpa using List.find?_eq_none.1 h j (mem p j)

/-- What a search finds passes its test. -/
theorem searchJobs_some {p j : JobNo} {test : JobNo → Bool} (h : searchJobs p test = some j) : test j = true :=
  List.find?_some h

/-- An eligible job number has an entry. -/
theorem State.job_of_eligible {s : State} {j : JobNo} (h : s.eligible j = true) : ∃ job, s.job j = some job := by
  unfold State.eligible at h
  rcases e : s.job j with _ | job
  · simp [e] at h
  · exact ⟨job, rfl⟩

/-- All that the arbiter can do: nothing, with a grant in progress or no job eligible; or one grant to an eligible job. -/
theorem State.arbitrate_cases (s : State) :
    (s.arbitrate = s ∧ (s.grant = none → ∀ j, s.eligible j = false)) ∨
    ∃ (k : JobNo) (job : Job) (fp lp : JobNo), s.grant = none ∧ s.eligible k = true ∧ s.job k = some job ∧
      s.arbitrate =
        { s.setJob k (some job.opened) with
          freezePointer := fp, loadPointer := lp
          grant := some { job := k, frames := job.openingFrames, examined := 0, closed := false } } := by
  unfold State.arbitrate
  by_cases hg : s.grant.isSome = true
  · rw [if_pos hg]
    exact .inl ⟨rfl, fun h => by rw [h] at hg; cases hg⟩
  · rw [if_neg hg]
    have hn : s.grant = none := by simpa using hg
    rcases hf : searchJobs s.freezePointer fun j => s.eligible j && s.freezeClass j with _ | k
    · rcases hl : searchJobs s.loadPointer fun j => s.eligible j && !s.freezeClass j with _ | k
      · refine .inl ⟨rfl, fun _ j => ?_⟩
        have a := searchJobs_none hf j
        have b := searchJobs_none hl j
        revert a b
        cases s.eligible j <;> cases s.freezeClass j <;> simp
      · have he := searchJobs_some hl
        simp only [Bool.and_eq_true] at he
        obtain ⟨job, hj⟩ := State.job_of_eligible he.1
        exact .inr ⟨k, job, s.freezePointer, k + 1, hn, he.1, hj, State.beginGrant_eq (s := { s with loadPointer := k + 1 }) hj⟩
    · have he := searchJobs_some hf
      simp only [Bool.and_eq_true] at he
      obtain ⟨job, hj⟩ := State.job_of_eligible he.1
      exact .inr ⟨k, job, k + 1, s.loadPointer, hn, he.1, hj, State.beginGrant_eq (s := { s with freezePointer := k + 1 }) hj⟩

/-- The arbiter leaves the lanes. -/
@[simp] theorem State.arbitrate_lane (s : State) (i : Slot) : s.arbitrate.lane i = s.lane i := by
  rcases s.arbitrate_cases with ⟨h, _⟩ | ⟨k, job, fp, lp, _, _, _, h⟩ <;> rw [h]; rfl

/-- The arbiter changes at most the verify segment of one entry. -/
theorem State.arbitrate_job (s : State) (j : JobNo) :
    s.arbitrate.job j = s.job j ∨
    ∃ job, s.job j = some job ∧ s.arbitrate.job j = some job.opened := by
  rcases s.arbitrate_cases with ⟨h, _⟩ | ⟨k, job, fp, lp, _, _, hj, h⟩
  · rw [h]; exact .inl rfl
  · rw [h]
    by_cases e : j = k
    · subst e
      exact .inr ⟨job, hj, State.job_setJob_self s j _⟩
    · exact .inl (State.job_setJob_of_ne s _ e)

@[simp] theorem Job.opened_state (j : Job) : j.opened.state = j.state := by
  unfold Job.opened
  cases h : j.state <;> simp [h]

@[simp] theorem Job.opened_slot (j : Job) : j.opened.slot = j.slot := by
  unfold Job.opened
  cases j.state <;> rfl

/-- A job that is not in VERIFY is left as it is by the arbiter. -/
theorem State.arbitrate_job_of_ne {s : State} {j : JobNo} (h : ∀ job, s.job j = some job → job.state ≠ .verify) :
    s.arbitrate.job j = s.job j := by
  rcases s.arbitrate_job j with e | ⟨job, hj, e⟩
  · exact e
  · rw [e, hj]
    have := h job hj
    unfold Job.opened
    revert this
    cases job.state <;> simp

/-- The arbiter leaves which jobs target a slot. -/
theorem State.arbitrate_targetedBy (s : State) (i : Slot) (j : JobNo) : s.arbitrate.TargetedBy i j ↔ s.TargetedBy i j := by
  unfold State.TargetedBy
  rcases s.arbitrate_job j with e | ⟨job, hj, e⟩
  · rw [e]
  · rw [e, hj]
    simp

end Sys2Proof.Machine
end

