-- ==== Sys2Proof/Laws/Steps.lean ====
section
/-! SUPPORT. All that a command can do to the lanes, the jobs, the grant, the identification master, the store and the settings:
one lemma over every command, which the proofs of rules across blocks cite instead of opening the commands. -/

namespace Sys2Proof.Machine

/-- The lane events that leave every other block as it is. -/
inductive Lane.Turns (store : Store) (set : Settings) (l : Lane) : Lane → Prop
  /-- The lane's notice is placed (08, R184). -/
  | unmark : Lane.Turns store set l { l with mark := false }
  /-- A transmission has left (04, R83). -/
  | sent : Lane.Turns store set l l.sent
  /-- The ALIGN step timer expires (03, R68). -/
  | alignExpired : Lane.Turns store set l l.alignExpired
  /-- The PATTERN reply timer expires (03, R69). -/
  | replyExpired : Lane.Turns store set l l.replyExpired
  /-- A LOCKED is taken (03, R70). -/
  | locked : Lane.Turns store set l l.takeLocked
  /-- A PATTERN_RESULT is taken (03, R69). -/
  | pattern (failures : Nat) : Lane.Turns store set l (l.takePattern failures)
  /-- A fill (04, R90). -/
  | fill : Lane.Turns store set l (l.fill store set)
  /-- An audit timer expiry (05, R107). -/
  | audit : Lane.Turns store set l (l.auditTick store set)
  /-- PRESENT rises without a new board in a closed slot (03, R50). -/
  | rise (h : l.present = false) (h' : ¬(l.state = .empty ∧ l.lever = true)) : Lane.Turns store set l { l with present := true }
  /-- The lever closes without a board to identify (03, R50). -/
  | close (h : l.lever = false) (h' : ¬((l.state = .empty ∧ l.present = true) ∨ l.state = .extracting)) :
      Lane.Turns store set l { l with lever := true }
  /-- PRESENT falls on an EMPTY lane (03, R50). -/
  | fallEmpty (h : l.state = .empty) : Lane.Turns store set l { l with present := false }
  /-- PRESENT falls on an EXTRACTING lane (03, R53). -/
  | fallExtracting (h : l.state = .extracting) : Lane.Turns store set l ({ l with present := false }.vacate l.cause)
  /-- PRESENT falls on a lane in TRAINING, READY, LIVE or FAULTED (03, R53). -/
  | fall (h : l.state = .training ∨ l.state = .ready ∨ l.state = .live ∨ l.state = .faulted) :
      Lane.Turns store set l ({ l with present := false }.vacate (some .surpriseRemoval))
  /-- The lever opens on an EMPTY or EXTRACTING lane (03, R50). -/
  | openOut (h : l.state = .empty ∨ l.state = .extracting) : Lane.Turns store set l { l with lever := false }
  /-- The lever opens on a lane in TRAINING, READY, LIVE or FAULTED that sees its board (03, R52). -/
  | extract (h : l.state = .training ∨ l.state = .ready ∨ l.state = .live ∨ l.state = .faulted) :
      Lane.Turns store set l { l with lever := false }.extract
  /-- LANE_RESET of a lane without a seated and closed board (03, R57). -/
  | resetOut (h : l.state.resettable = true) (h' : ¬(l.present = true ∧ l.lever = true)) : Lane.Turns store set l (l.vacate none)
  /-- LANE_RELEASE (03, R58). -/
  | release (h : l.state = .live) : Lane.Turns store set l { l.abandon.goto .ready with cause := some .released }
  /-- LANE_CLEAR_ALARM (05, R105). -/
  | clearAlarm (h : l.state = .live) :
      Lane.Turns store set l { l with live := { l.live with alarm := false, watermark := l.live.depth } }
  /-- A training burst is retired by an acknowledgement. -/
  | retireTraining (b : Burst) (h : l.tx.awaited = some b) (h' : b.client = .training) :
      Lane.Turns store set l { l with tx := l.tx.release }
  /-- An apply-queue burst is retired (04, R91). -/
  | retireLive (b : Burst) (digest : Option Word32) (h : l.tx.awaited = some b) (h' : b.client = .applyQueue) :
      Lane.Turns store set l ({ l with tx := l.tx.release }.retiredLive store set b digest)
  /-- The outstanding burst is sent again (04, R86). -/
  | resend (b : Burst) (h : l.tx.awaited = some b) (h' : b.mayResend = true) : Lane.Turns store set l { l with tx := l.tx.resend b }
  /-- A LIVE lane's burst has failed for the fourth time (03, R56). -/
  | linkFault (h : l.state = .live) : Lane.Turns store set l (l.fault .linkErrors)
  /-- The fourth failure of a burst on a lane that is neither LIVE nor LOADING. -/
  | dropBurst (h : l.state ≠ .live) (h' : l.state ≠ .loading) : Lane.Turns store set l { l with tx := l.tx.release }

/-- What the command `c` can make of lanes, jobs, grant, master, store and settings; the request port's fields and the scanner are left
as they were. -/
inductive State.Moves (c : Instr) (s : State) : State → Prop
  /-- None of them is touched. -/
  | same : State.Moves c s s
  /-- A reset. -/
  | reset (store : Store) (settings : Settings) (h : store = Store.reset ∨ store = s.store)
      (h' : c = .softReset ∨ c = .powerOn ∨ c = .resetPinAssert ∨ c = .resetEnd) :
      State.Moves c s { s.resetBlocks store with settings }
  /-- STORE_INIT begins. -/
  | begins (requested : Nat) (h : s.store.phase = .uninitialized) :
      State.Moves c s { s with store := s.store.begin (roundSize requested) }
  /-- The initialisation completes. -/
  | completes (h : s.store.phase = .initializing) : State.Moves c s { s with store := s.store.complete }
  /-- An INSERT is admitted. -/
  | inserts (m : List Byte) (r : Record) (row : Nat) (h : s.insertVerdict m = .ok (r, row)) :
      State.Moves c s (s.applyChange (s.store.insert row r) r.key.kind row fun p => some (.write row (r.encode p)))
  /-- An UPDATE with another body is admitted. -/
  | updates (m : List Byte) (row : Nat) (old r : Record) (h : s.updateVerdict m = .ok (row, old, r)) :
      State.Moves c s
        (s.applyChange (s.store.update row old { old with body := r.body }) r.key.kind row
          fun p => updateEntry p row old { old with body := r.body })
  /-- A RETIRE is admitted. -/
  | retires (m : List Byte) (k : Key) (row : Nat) (old : Record) (h : s.retireVerdict m = .ok (k, row, old)) :
      State.Moves c s (s.applyChange (s.store.retire k row old) k.kind row fun _ => some (.clear row))
  /-- A setting changes that no lane looks at now. -/
  | setting (settings : Settings) : State.Moves c s { s with settings }
  /-- SET_AUDIT (09, R193). -/
  | setAudit (interval : Nat) :
      State.Moves c s ({ s with settings := { s.settings with interval } }.mapLanes (Lane.restartAudit interval))
  /-- A lane event. -/
  | turn (i : Slot) (l : Lane) (h : Lane.Turns s.store s.settings (s.lane i) l) : State.Moves c s (s.setLane i l)
  /-- A lane enters IDENTIFYING from EMPTY or EXTRACTING, or by LANE_RESET (03, R51 and R57). -/
  | identifies (i : Slot) (present : Bool) (h : (s.lane i).state ≠ .identifying) (h' : (s.lane i).state ≠ .loading)
      (e : present = true ∨ ((s.lane i).state = .extracting ∧ present = (s.lane i).present)) :
      State.Moves c s ((s.setLane i { s.lane i with present, lever := true }).identify i)
  /-- An IDENTIFYING lane loses its board: PRESENT falls or the lever opens (03, R52, R53 and R66). -/
  | unidentifies (i : Slot) (l : Lane) (h : (s.lane i).state = .identifying)
      (e : l = { s.lane i with present := false }.vacate (some .surpriseRemoval) ∨
        (l = { s.lane i with lever := false }.extract ∧ (s.lane i).lever = true)) :
      State.Moves c s { s.setLane i l with master := s.master.abandon i }
  /-- The head slot's identification ends (03, R62 to R64). -/
  | identified (i : Slot) (l : Lane) (h : s.master.attempting = some i)
      (e : l = (s.lane i).fault .idUnreadable ∨ ∃ d, l = (s.lane i).identified d) :
      State.Moves c s { s.setLane i l with master := s.master.remove i }
  /-- The master counts an attempt without an outcome, or begins a new one. -/
  | masters (m : IdMaster) (hf : m.fifo = s.master.fifo) (hp : m.phase = .idle ↔ s.master.phase = .idle)
      (hn : m.nacks = s.master.nacks ∨ m.nacks ≤ 2) (hl : m.losses = s.master.losses ∨ m.losses ≤ 7) :
      State.Moves c s { s with master := m }
  /-- A LOADING lane leaves its board or link behind and its job fails (06, R140 and R141). -/
  | loses (i : Slot) (l : Lane) (cause : JobCause) (h : (s.lane i).state = .loading)
      (e : l = { s.lane i with present := false }.vacate (some .surpriseRemoval) ∨
        (l = { s.lane i with lever := false }.extract ∧ (s.lane i).lever = true) ∨ l = (s.lane i).fault .linkErrors) :
      State.Moves c s ((s.setLane i l).failJobOn i cause)
  /-- COPY_START is accepted (06, R122). -/
  | starts (m : List Byte) (i : Slot) (facts : BoardFacts) (policy : Policy) (j : JobNo)
      (h : s.copyVerdict m = .ok (i, facts, policy, j)) : State.Moves c s (s.startJob i facts policy j)
  /-- COPY_ABORT is accepted (06, R143). -/
  | aborts (i : Slot) (j : JobNo) (h : s.jobOn i = some j) : State.Moves c s (s.endJob j .aborted).arbitrate
  /-- A job's burst is retired (04, R92; 06, R139). -/
  | retireJob (i : Slot) (b : Burst) (j : JobNo) (digest : Option Word32) (h : (s.lane i).tx.awaited = some b)
      (hc : b.client = .job j) (hd : b.owesDigest = true → digest.isSome = true) :
      State.Moves c s
        ((s.setLane i { s.lane i with tx := (s.lane i).tx.release }).reportRetired j b.frames digest).arbitrate
  /-- SWEEP_EXAMINATION (06, R129). -/
  | examines : State.Moves c s s.examineRow
  /-- DRAIN_ROW_TAKE (06, R137). -/
  | takes : State.Moves c s s.takeRow
  /-- GRANT_COMPLETE (06, R124). -/
  | grants : State.Moves c s s.completeGrant
  /-- FREEZE_TIMER_EXPIRY (07, R163 and R164). -/
  | freezes (j : JobNo) : State.Moves c s (s.freezeExpired j)
  /-- SAMPLE_TIMER_EXPIRY (07, R151). -/
  | samples (j : JobNo) : State.Moves c s (s.sampleExpired j)
  /-- A job's notice is placed (08, R184; 06, R145). -/
  | noticed (j : JobNo) (job : Job) (h : s.job j = some job) : State.Moves c s (s.setJob j job.noticed)

/-- The fields of which `State.Moves` speaks are those of another state. -/
structure State.SamePart (s t : State) : Prop where
  store : t.store = s.store
  settings : t.settings = s.settings
  master : t.master = s.master
  lanes : t.lanes = s.lanes
  jobs : t.jobs = s.jobs
  grant : t.grant = s.grant

theorem State.SamePart.refl (s : State) : State.SamePart s s := ⟨rfl, rfl, rfl, rfl, rfl, rfl⟩

theorem State.SamePart.symm {s t : State} (h : State.SamePart s t) : State.SamePart t s :=
  ⟨h.store.symm, h.settings.symm, h.master.symm, h.lanes.symm, h.jobs.symm, h.grant.symm⟩

/-- What a command makes of the state: a move between states that the request port and the scanner may tell apart from the ones
given. -/
def State.Steps (c : Instr) (s t : State) : Prop := ∃ a b, State.SamePart s a ∧ State.Moves c a b ∧ State.SamePart b t

/-- A move with the request port's fields changed before and after. -/
theorem State.Steps.of {c : Instr} {s a b t : State} (h : State.Moves c a b) (ha : State.SamePart s a := by exact ⟨rfl, rfl, rfl, rfl, rfl, rfl⟩)
    (hb : State.SamePart b t := by exact ⟨rfl, rfl, rfl, rfl, rfl, rfl⟩) : State.Steps c s t := ⟨a, b, ha, h, hb⟩

/-- A change of the request port's fields and the scanner alone. -/
theorem State.Steps.port {c : Instr} {s t : State} (h : State.SamePart s t := by exact ⟨rfl, rfl, rfl, rfl, rfl, rfl⟩) : State.Steps c s t :=
  ⟨s, s, .refl s, .same, h⟩

/-- A request command makes of the state what its decision makes of it. -/
theorem State.takeRequest_steps {c : Instr} (s : State) (isKind : Byte → Bool) (f : State → List Byte → State)
    (h : ∀ m rest, State.Steps c s (f { s with requests := rest } m)) : State.Steps c s (s.takeRequest isKind f) := by
  rcases State.takeRequest_cases s isKind f with e | ⟨m, rest, _, _, e⟩
  · rw [e]; exact .port
  · rw [e]; exact h m rest

/-- A command held in reset makes of the state what the command itself does, or nothing. -/
theorem State.unlessReset_steps {c : Instr} (s : State) (f : State → State) (h : State.Steps c s (f s)) : State.Steps c s (s.unlessReset f) := by
  unfold State.unlessReset
  split
  · exact .port
  · exact h

/-- PRESENT-rise (03, R50 and R51). -/
theorem State.takePresentRise_moves {c : Instr} (s : State) (i : Slot) : State.Moves c s (s.takePresentRise i) := by
  unfold State.takePresentRise
  simp only []
  split
  · exact .same
  · next hp =>
    split
    · next h =>
      have e : ({ s.lane i with present := true } : Lane) = { s.lane i with present := true, lever := true } := by
        rw [← h.2]
      rw [e]
      exact .identifies i true (by rw [h.1]; decide) (by rw [h.1]; decide) (.inl rfl)
    · next h => exact .turn i _ (.rise (by simpa using hp) h)

/-- LEVER-close (03, R50 and R51). -/
theorem State.takeLeverClose_moves {c : Instr} (s : State) (i : Slot) : State.Moves c s (s.takeLeverClose i) := by
  unfold State.takeLeverClose
  simp only []
  split
  · exact .same
  · next hp =>
    split
    · next h =>
      refine .identifies i (s.lane i).present ?_ ?_ ?_
      · rcases h with h | h <;> simp [h]
      · rcases h with h | h <;> simp [h]
      · rcases h with h | h
        · exact .inl h.2
        · exact .inr ⟨h, rfl⟩
    · next h => exact .turn i _ (.close (by simpa using hp) h)

/-- The states in which a lane has neither a place in the FIFO nor a job and sees its board. -/
theorem LaneState.other {x : LaneState} (h1 : x ≠ .empty) (h2 : x ≠ .extracting) (h3 : x ≠ .identifying) (h4 : x ≠ .loading) :
    x = .training ∨ x = .ready ∨ x = .live ∨ x = .faulted := by
  cases x <;> simp_all

/-- PRESENT-fall (03, R50 and R53). -/
theorem State.takePresentFall_moves {c : Instr} (s : State) (i : Slot) : State.Moves c s (s.takePresentFall i) := by
  unfold State.takePresentFall State.leaveBySeating
  simp only []
  split
  · exact .same
  · split
    · next h => exact .turn i _ (.fallEmpty h)
    · next h => exact .turn i _ (.fallExtracting h)
    · next h1 h2 =>
      split
      · next h => exact .unidentifies i _ h (.inl rfl)
      · next h => exact .loses i _ _ h (.inl rfl)
      · next h3 h4 => exact .turn i _ (.fall (LaneState.other h1 h2 h3 h4))

/-- LEVER-open (03, R50 and R52). -/
theorem State.takeLeverOpen_moves {c : Instr} (s : State) (i : Slot) : State.Moves c s (s.takeLeverOpen i) := by
  unfold State.takeLeverOpen State.leaveBySeating
  simp only []
  split
  · exact .same
  · next hv =>
    have hv : (s.lane i).lever = true := by simpa using hv
    split
    · next h => exact .turn i _ (.openOut (.inl h))
    · next h => exact .turn i _ (.openOut (.inr h))
    · next h1 h2 =>
      split
      · next h => exact .unidentifies i _ h (.inr ⟨rfl, hv⟩)
      · next h => exact .loses i _ _ h (.inr (.inl ⟨rfl, hv⟩))
      · next h3 h4 => exact .turn i _ (.extract (LaneState.other h1 h2 h3 h4))

/-- A failed attempt (03, R62 and R63). -/
theorem State.countNack_moves {c : Instr} (s : State) (i : Slot) (h : s.master.attempting = some i) :
    State.Moves c s (s.countNack i) := by
  unfold State.countNack
  split
  · next h' =>
    simp only [Config.maxNacks] at h'
    exact .masters _ rfl (by simp [IdMaster.wait, ((s.master.attempting_iff i).1 h).1])
      (.inr (by simp only [IdMaster.wait]; omega)) (.inl rfl)
  · exact .identified i _ h (.inl rfl)

/-- A lost arbitration (03, R63). -/
theorem State.countLoss_moves {c : Instr} (s : State) (i : Slot) (h : s.master.attempting = some i) :
    State.Moves c s (s.countLoss i) := by
  unfold State.countLoss
  split
  · next h' =>
    simp only [Config.maxLosses] at h'
    exact .masters _ rfl (by simp [IdMaster.wait, ((s.master.attempting_iff i).1 h).1]) (.inl rfl)
      (.inr (by simp only [IdMaster.wait]; omega))
  · exact .identified i _ h (.inl rfl)

/-- The end of an attempt (03, R61 to R66): an abandoned one is discarded, one in progress has its effect, and else nothing. -/
theorem State.attemptEnds_moves {c : Instr} (s : State) (effect : Slot → State → State)
    (h : ∀ i, s.master.attempting = some i → State.Moves c s (effect i s)) : State.Moves c s (s.attemptEnds effect) := by
  unfold State.attemptEnds
  split
  · exact .masters _ rfl Iff.rfl (.inl rfl) (.inl rfl)
  · split
    · next i e => exact h i e
    · exact .same

/-- A failure of the outstanding burst (04, R86). -/
theorem State.failBurst_moves {c : Instr} (s : State) (i : Slot) (b : Burst) (h : (s.lane i).tx.awaited = some b) :
    State.Moves c s (s.failBurst i b) := by
  unfold State.failBurst State.linkFailure
  simp only []
  split
  · next hr => exact .turn i _ (.resend b h hr)
  · split
    · next e => exact .loses i _ _ e (.inr (.inr rfl))
    · next e => exact .turn i _ (.linkFault e)
    · next h1 h2 => exact .turn i _ (.dropBurst h2 h1)

/-- An acknowledgement (04, R84 to R86). -/
theorem State.takeAck_moves {c : Instr} (s : State) (i : Slot) (seq : Byte) (ok : Bool) (digest : Option Word32) :
    State.Moves c s (s.takeAck i seq ok digest) := by
  unfold State.takeAck
  split
  · next b h =>
    split
    · split
      · next hr =>
        unfold State.retireBurst
        simp only []
        cases hc : b.client <;> simp only []
        · exact .turn i _ (.retireTraining b h hc)
        · refine .retireJob i b _ digest h hc fun ho => ?_
          rw [Burst.retiredBy, ho] at hr
          exact (by simpa using hr : ok = true ∧ digest.isSome = true).2
        · exact .turn i _ (.retireLive b digest h hc)
      · exact s.failBurst_moves i b h
    · exact .same
  · exact .same

/-- LANE_RESET (03, R57). -/
theorem State.resetLane_moves {c : Instr} (s : State) (i : Slot) (h : (s.lane i).state.resettable = true) :
    State.Moves c s (s.resetLane i) := by
  unfold State.resetLane
  simp only []
  split
  · next h' =>
    have e : s.setLane i { s.lane i with present := true, lever := true } = s := by
      have : ({ s.lane i with present := true, lever := true } : Lane) = s.lane i := by
        obtain ⟨hp, hl⟩ := h'
        revert hp hl
        rcases s.lane i with ⟨⟩
        rintro rfl rfl
        rfl
      rw [this, State.setLane_lane]
    have m := State.Moves.identifies (c := c) (s := s) i true (by intro c; rw [c] at h; cases h) (by intro c; rw [c] at h; cases h)
      (.inl rfl)
    rw [e] at m
    exact m
  · next h' => exact .turn i _ (.resetOut h h')

/-- A notice (08, R184). -/
theorem State.placeNoticeAt_steps {c : Instr} (s : State) (p : Fin 20) : State.Steps c s (s.placeNoticeAt p) := by
  unfold State.placeNoticeAt
  split
  · exact .of (.turn _ _ .unmark)
  · unfold State.placeJobNotice
    split
    · next job h => exact .of (.noticed _ job h)
    · exact .port

/-- All that one command can do to the lanes, the jobs, the grant, the master, the store and the settings. -/
theorem exec_steps (c : Instr) {s t : State} (h : exec c s = .next t) : State.Steps c s t := by
  cases c
  all_goals (injection h with h; subst h)
  case insert =>
    refine State.takeRequest_steps s _ _ fun m rest => ?_
    unfold State.decideInsert
    split
    · exact .port
    · next r row h => exact .of (.inserts m r row h)
  case update =>
    refine State.takeRequest_steps s _ _ fun m rest => ?_
    unfold State.decideUpdate
    split
    · exact .port
    · next row old r h =>
      split
      · exact .port
      · exact .of (.updates m row old r h)
  case retire =>
    refine State.takeRequest_steps s _ _ fun m rest => ?_
    unfold State.decideRetire
    split
    · exact .port
    · next k row old h => exact .of (.retires m k row old h)
  case find =>
    refine State.takeRequest_steps s _ _ fun m rest => ?_
    unfold State.decideFind
    (repeat' split) <;> exact .port
  case readRow =>
    refine State.takeRequest_steps s _ _ fun m rest => ?_
    unfold State.decideReadRow
    (repeat' split) <;> exact .port
  case storeInit =>
    refine State.takeRequest_steps s _ _ fun m rest => ?_
    unfold State.decideStoreInit
    split
    · next h => exact .of (.begins (fieldAt m 8 4) h)
    · exact .port
  case storeStats =>
    refine State.takeRequest_steps s _ _ fun m rest => ?_
    unfold State.decideStoreStats
    (repeat' split) <;> exact .port
  case laneStatus =>
    refine State.takeRequest_steps s _ _ fun m rest => ?_
    unfold State.decideLaneStatus
    (repeat' split) <;> exact .port
  case laneReset =>
    refine State.takeRequest_steps s _ _ fun m rest => ?_
    unfold State.decideLaneReset
    split
    · exact .port
    · split
      · next i _ h => exact .of (State.resetLane_moves _ i h)
      · exact .port
  case laneRelease =>
    refine State.takeRequest_steps s _ _ fun m rest => ?_
    unfold State.decideLaneRelease
    split
    · exact .port
    · simp only []
      split
      · next i _ h => exact .of (.turn i _ (.release h))
      · exact .port
  case laneClearAlarm =>
    refine State.takeRequest_steps s _ _ fun m rest => ?_
    unfold State.decideLaneClearAlarm
    split
    · exact .port
    · simp only []
      split
      · next i _ h => exact .of (.turn i _ (.clearAlarm h))
      · exact .port
  case copyStart =>
    refine State.takeRequest_steps s _ _ fun m rest => ?_
    unfold State.decideCopyStart
    split
    · exact .port
    · next i facts policy j h => exact .of (.starts m i facts policy j h)
  case copyAbort =>
    refine State.takeRequest_steps s _ _ fun m rest => ?_
    unfold State.decideCopyAbort
    split
    · exact .port
    · split
      · exact .port
      · next j h => exact .of (.aborts _ j h)
  case copyStatus =>
    refine State.takeRequest_steps s _ _ fun m rest => ?_
    unfold State.decideCopyStatus
    (repeat' split) <;> exact .port
  case setScan =>
    refine State.takeRequest_steps s _ _ fun m rest => ?_
    unfold State.decideSetScan
    split
    · exact .port
    · exact .port
    · exact .of (.setting { s.settings with debounce := roundDebounce (fieldAt m 9 2) })
  case setLaneAlarm =>
    refine State.takeRequest_steps s _ _ fun m rest => ?_
    unfold State.decideSetLaneAlarm
    split
    · exact .port
    · exact .port
    · split
      · exact .port
      · next mode _ => exact .of (.setting { s.settings with threshold := clamp 16 4096 (fieldAt m 9 2), mode })
  case setAudit =>
    refine State.takeRequest_steps s _ _ fun m rest => ?_
    unfold State.decideSetAudit
    split
    · exact .port
    · exact .port
    · exact .of (.setAudit (min 255 (fieldAt m 9 2)))
  case identify => exact State.takeRequest_steps s _ _ fun m rest => .port
  case softReset =>
    refine State.takeRequest_steps s _ _ fun m rest => ?_
    refine .of (.reset s.store.softReset s.settings ?_ (.inl rfl))
    unfold Store.softReset
    split
    · exact .inr rfl
    · exact .inl rfl
  case unknownRequestKind => exact State.takeRequest_steps s _ _ fun m rest => .port
  case requestPortWrite =>
    refine State.unlessReset_steps s _ ?_
    unfold State.writeRequest
    split <;> exact .port
  case responsePortRead => exact .port
  case portWordWriteDiscarded => exact .port
  case powerOn => exact .of (.reset Store.reset s.settings (.inl rfl) (.inr (.inl rfl)))
  case resetPinAssert => exact .of (.reset Store.reset s.settings (.inl rfl) (.inr (.inr (.inl rfl))))
  case resetEnd =>
    unfold State.endReset
    split
    · exact .of (.reset Store.reset Settings.defaults (.inl rfl) (.inr (.inr (.inr rfl))))
    · exact .port
  case scan =>
    refine State.unlessReset_steps s _ ?_
    unfold State.scanned
    split <;> exact .port
  case presentRise i =>
    exact State.unlessReset_steps s _
      (.of (State.takePresentRise_moves (s.takeEvent i .presentRise) i) ⟨rfl, rfl, rfl, rfl, rfl, rfl⟩ (.refl _))
  case presentFall i =>
    exact State.unlessReset_steps s _
      (.of (State.takePresentFall_moves (s.takeEvent i .presentFall) i) ⟨rfl, rfl, rfl, rfl, rfl, rfl⟩ (.refl _))
  case leverClose i =>
    exact State.unlessReset_steps s _
      (.of (State.takeLeverClose_moves (s.takeEvent i .leverClose) i) ⟨rfl, rfl, rfl, rfl, rfl, rfl⟩ (.refl _))
  case leverOpen i =>
    exact State.unlessReset_steps s _
      (.of (State.takeLeverOpen_moves (s.takeEvent i .leverOpen) i) ⟨rfl, rfl, rfl, rfl, rfl, rfl⟩ (.refl _))
  case idAttemptComplete d =>
    exact State.unlessReset_steps s _ (.of (s.attemptEnds_moves _ fun i h => .identified i _ h (.inr ⟨d, rfl⟩)))
  case idNotAcknowledged => exact State.unlessReset_steps s _ (.of (s.attemptEnds_moves _ s.countNack_moves))
  case idArbitrationLost => exact State.unlessReset_steps s _ (.of (s.attemptEnds_moves _ s.countLoss_moves))
  case idWaitExpiry =>
    refine State.unlessReset_steps s _ (.of (.masters s.master.resume ?_ ?_ (.inl ?_) (.inl ?_)))
    all_goals
      unfold IdMaster.resume
      (repeat' split) <;> simp_all
  case alignStepTimeout => exact State.unlessReset_steps s _ (.of (.turn _ _ .alignExpired))
  case patternReplyTimeout => exact State.unlessReset_steps s _ (.of (.turn _ _ .replyExpired))
  case locked =>
    refine State.unlessReset_steps s _ ?_
    split
    · exact .of (.turn _ _ .locked)
    · exact .port
  case patternResult =>
    refine State.unlessReset_steps s _ ?_
    split
    · exact .of (.turn _ _ (.pattern _))
    · exact .port
  case transmissionComplete => exact State.unlessReset_steps s _ (.of (.turn _ _ .sent))
  case burstAck =>
    refine State.unlessReset_steps s _ ?_
    split
    · exact .of (s.takeAck_moves _ _ _ _)
    · exact .port
  case ackTimeout =>
    refine State.unlessReset_steps s _ ?_
    unfold State.ackExpired
    split
    · next b h =>
      split
      · exact .of (s.failBurst_moves _ b h)
      · exact .port
    · exact .port
  case transmitterFill => exact State.unlessReset_steps s _ (.of (.turn _ _ .fill))
  case auditTimerExpiry => exact State.unlessReset_steps s _ (.of (.turn _ _ .audit))
  case storeInitComplete =>
    refine State.unlessReset_steps s _ ?_
    unfold State.completeInit
    split
    · next h _ => exact .of (.completes h)
    · exact .port
  case sweepExamination => exact State.unlessReset_steps s _ (.of .examines)
  case drainRowTake => exact State.unlessReset_steps s _ (.of .takes)
  case grantComplete => exact State.unlessReset_steps s _ (.of .grants)
  case freezeTimerExpiry j => exact State.unlessReset_steps s _ (.of (.freezes j))
  case sampleTimerExpiry j => exact State.unlessReset_steps s _ (.of (.samples j))
  case noticePlace =>
    refine State.unlessReset_steps s _ ?_
    unfold State.placeNotice
    split
    · exact .port
    · split
      · exact s.placeNoticeAt_steps _
      · exact .port

end Sys2Proof.Machine
end

