-- ==== Sys2Proof/Laws/CopySteps.lean ====
section
/-! SUPPORT. The copy engine's shared operations: the dirty set, a job's work, and all that the end of a job's work and the report
of a retired burst can make of a job (06, 07). -/

namespace Sys2Proof.Machine

/-! ### The dirty set (06, R132; 07, R169) -/

theorem mem_dirtyInsert (row x : Nat) (dirty : List Nat) : x ∈ dirtyInsert row dirty ↔ x = row ∨ x ∈ dirty := by
  induction dirty with
  | nil => simp [dirtyInsert]
  | cons r rest ih =>
    unfold dirtyInsert
    split
    · simp
    · split
      · next h => subst h; simp
      · simp only [List.mem_cons, ih]; tauto

/-- An added row keeps the set ascending. -/
theorem dirtyInsert_ascending (row : Nat) {dirty : List Nat} (h : dirty.Pairwise (· < ·)) :
    (dirtyInsert row dirty).Pairwise (· < ·) := by
  induction dirty with
  | nil => simp [dirtyInsert]
  | cons r rest ih =>
    rw [List.pairwise_cons] at h
    unfold dirtyInsert
    split
    · refine List.pairwise_cons.2 ⟨fun x hx => ?_, List.pairwise_cons.2 h⟩
      rcases List.mem_cons.1 hx with rfl | hx
      · assumption
      · have := h.1 x hx; omega
    · split
      · exact List.pairwise_cons.2 h
      · refine List.pairwise_cons.2 ⟨fun x hx => ?_, ih h.2⟩
        rcases (mem_dirtyInsert _ _ _).1 hx with rfl | hx
        · omega
        · exact h.1 x hx

/-- A segment's rows join the set. -/
theorem mem_dirtySegment (segment x : Nat) (dirty : List Nat) :
    x ∈ dirtySegment segment dirty ↔ x / 4096 = segment ∨ x ∈ dirty := by
  have fold : ∀ rows : List Nat, x ∈ rows.foldr dirtyInsert dirty ↔ x ∈ rows ∨ x ∈ dirty := by
    intro rows
    induction rows with
    | nil => simp
    | cons r rows ih => simp only [List.foldr_cons, mem_dirtyInsert, ih, List.mem_cons]; tauto
  unfold dirtySegment Config.segmentRows
  rw [fold, List.mem_range'_1]
  have : (4096 * segment ≤ x ∧ x < 4096 * segment + 4096) ↔ x / 4096 = segment := by omega
  rw [this]

theorem dirtySegment_ascending (segment : Nat) {dirty : List Nat} (h : dirty.Pairwise (· < ·)) :
    (dirtySegment segment dirty).Pairwise (· < ·) := by
  unfold dirtySegment
  induction List.range' (Config.segmentRows * segment) Config.segmentRows with
  | nil => exact h
  | cons r rows ih => exact dirtyInsert_ascending r ih

/-! ### The work of a job (06, R125 and R137) -/

theorem Job.nextDirty_eq_none (j : Job) : j.nextDirty = none ↔ ∀ row ∈ j.dirty, row < j.drainCursor := by
  unfold Job.nextDirty
  rw [List.find?_eq_none]
  simp

/-- The row a drain takes next is in the set, at or above the cursor. -/
theorem Job.nextDirty_mem {j : Job} {row : Nat} (h : j.nextDirty = some row) : row ∈ j.dirty ∧ j.drainCursor ≤ row :=
  ⟨List.mem_of_find?_eq_some h, by simpa using List.find?_some h⟩

/-- The row a drain takes next is the least such row of an ascending set. -/
theorem Job.nextDirty_least {j : Job} {row : Nat} (h : j.nextDirty = some row) (hp : j.dirty.Pairwise (· < ·)) {other : Nat}
    (hm : other ∈ j.dirty) (hc : j.drainCursor ≤ other) : row ≤ other := by
  obtain ⟨_, front, back, e, before⟩ := List.find?_eq_some_iff_append.1 h
  rw [e] at hm hp
  rcases List.mem_append.1 hm with hm | hm
  · have := before other hm
    simp only [Bool.not_eq_true', decide_eq_false_iff_not] at this
    omega
  · rcases List.mem_cons.1 hm with rfl | hm
    · exact Nat.le_refl _
    · exact Nat.le_of_lt ((List.pairwise_cons.1 (List.pairwise_append.1 hp).2.1).1 other hm)

/-- An eligible job is non-terminal, has work and an IDLE transmitter, and has no grant. -/
theorem State.eligible_working {s : State} {j : JobNo} (h : s.eligible j = true) :
    ∃ job, s.job j = some job ∧ job.state.working = true ∧ job.hasWork s.store = true ∧ s.granted j = false ∧
      (s.lane job.slot).tx.phase = .idle := by
  unfold State.eligible at h
  split at h
  · next job e =>
    simp only [Bool.and_eq_true, Bool.not_eq_true', decide_eq_true_eq] at h
    refine ⟨job, e, ?_, h.1.1, h.1.2, h.2⟩
    have w := h.1.1
    unfold Job.hasWork at w
    split at w <;> next e => simp_all [JobState.working]
  · cases h

/-! ### What the end of work and a retired burst make of a job -/

/-- What an event of job `j`, whose entry was `job`, makes of the state: nothing, the entry alone changed and still non-terminal, or
the job ended, which happens only where `q` holds. -/
inductive State.JobMoves (s : State) (j : JobNo) (job : Job) (q : Prop) : State → Prop
  | same : State.JobMoves s j job q s
  | keeps (after : Job) (slot : after.slot = job.slot) (profile : after.profile = job.profile)
      (working : after.state.working = true) : State.JobMoves s j job q (s.setJob j (some after))
  | ends (last : Job) (outcome : JobState) (slot : last.slot = job.slot) (terminal : outcome.working = false) (hq : q) :
      State.JobMoves s j job q ((s.setJob j (some last)).endJob j outcome)

theorem State.JobMoves.mono {s t : State} {j : JobNo} {job : Job} {q q' : Prop} (h : State.JobMoves s j job q t) (hq : q → q') :
    State.JobMoves s j job q' t := by
  cases h with
  | same => exact .same
  | keeps a b c d => exact .keeps a b c d
  | ends a b c d e => exact .ends a b c d (hq e)

/-- The end of the freeze drain. -/
theorem State.freezeDrained_moves (s : State) (j : JobNo) {job last : Job} (hs : last.slot = job.slot)
    (hp : last.profile = job.profile) {q : Prop} (hq : q) :
    State.JobMoves s j job q ((s.setJob j (some last)).freezeDrained j last) := by
  unfold State.freezeDrained
  split
  · rw [State.setJob_setJob]; exact .keeps _ hs hp rfl
  · exact .ends _ _ hs rfl hq

/-- The entry into FREEZE. -/
theorem State.freeze_moves (s : State) (j : JobNo) {job last : Job} (hs : last.slot = job.slot) (hp : last.profile = job.profile)
    {q : Prop} (hq : q) : State.JobMoves s j job q (s.freeze j last) := by
  unfold State.freeze
  simp only []
  split
  · exact State.freezeDrained_moves s j (last := last.enterFreeze) hs hp hq
  · exact .keeps _ hs hp rfl

theorem Job.countStall_same (j : Job) : j.countStall.slot = j.slot ∧ j.countStall.profile = j.profile := by
  unfold Job.countStall
  split <;> exact ⟨rfl, rfl⟩

/-- Pass-end evaluation. -/
theorem State.evaluate_moves (s : State) (j : JobNo) (job : Job) {q : Prop} (hq : q) :
    State.JobMoves s j job q (s.evaluate j job) := by
  obtain ⟨hs, hp⟩ := job.countStall_same
  unfold State.evaluate
  simp only []
  split
  · exact State.freeze_moves s j (job := job) (last := job.record _ _ _) rfl rfl hq
  · split
    · split
      · exact State.freeze_moves s j (job := job) (last := job.countStall.record _ _ _) hs hp hq
      · exact .ends _ _ hs rfl hq
    · exact .keeps _ hs hp rfl

/-- The end of a job's work: it ends the job only with no grant of it and no burst of it outstanding. -/
theorem State.endOfWork_moves {s : State} {j : JobNo} {job : Job} (h : s.job j = some job) :
    State.JobMoves s j job (s.granted j = false ∧ (s.lane job.slot).tx.outstanding = none) (s.endOfWork j) := by
  have same : s.setJob j (some job) = s := by
    have e : s.jobs.set j (some job) = s.jobs := by
      rw [← h]
      ext k hk
      by_cases e : (j : Nat) = k <;> simp [State.job, e]
    simp only [State.setJob, e]
  unfold State.endOfWork
  rw [h]
  simp only []
  split
  · exact .same
  · next c =>
    simp only [Bool.or_eq_true, not_or, Bool.not_eq_true, State.burstOut, Option.isSome_eq_false_iff, Option.isNone_iff_eq_none] at c
    split
    · split
      · exact State.evaluate_moves s j job c
      · exact .same
    · split
      · exact State.evaluate_moves s j job c
      · exact .same
    · split
      · have := State.freezeDrained_moves s j (job := job) (last := job) rfl rfl c
        rwa [same] at this
      · exact .same
    all_goals exact .same

/-- The end of a job's work after its entry has changed. -/
theorem State.setJob_endOfWork_moves {s : State} {j : JobNo} {job after : Job}
    (hs : after.slot = job.slot) (hp : after.profile = job.profile) (w : after.state.working = true) :
    State.JobMoves s j job (s.granted j = false ∧ (s.lane job.slot).tx.outstanding = none)
      ((s.setJob j (some after)).endOfWork j) := by
  have m := State.endOfWork_moves (s := s.setJob j (some after)) (State.job_setJob_self s j _)
  generalize (s.setJob j (some after)).endOfWork j = x at m
  cases m with
  | same => exact .keeps _ hs hp w
  | keeps a b c d => rw [State.setJob_setJob]; exact .keeps _ (b.trans hs) (c.trans hp) d
  | ends a o b c d => rw [State.setJob_setJob]; exact .ends _ _ (b.trans hs) c (by rw [hs] at d; exact d)

/-- A retired burst reported to a non-terminal job. -/
theorem State.reportRetired_moves {s : State} {j : JobNo} {job : Job} (h : s.job j = some job) (w : job.state.working = true)
    (ho : (s.lane job.slot).tx.outstanding = none) (frames : List Frame) (digest : Option Word32) :
    State.JobMoves s j job ((s.lane job.slot).tx.outstanding = none) (s.reportRetired j frames digest) := by
  have st : (job.countSends frames).state = job.state := rfl
  have drained : State.JobMoves s j job ((s.lane job.slot).tx.outstanding = none)
      ((s.setJob j (some (job.countSends frames))).endOfWork j) :=
    (State.setJob_endOfWork_moves (job := job) (after := job.countSends frames) rfl rfl (by rw [st]; exact w)).mono And.right
  have round : ∀ last : Job, last.slot = job.slot → last.profile = job.profile →
      State.JobMoves s j job ((s.lane job.slot).tx.outstanding = none) (s.endRound j last) := by
    intro last hs hp
    unfold State.endRound
    split
    · exact .ends _ _ hs rfl ho
    · simp only []
      split
      · exact .keeps _ hs hp rfl
      · exact .ends _ _ hs rfl ho
  unfold State.reportRetired
  rw [h]
  simp only []
  split
  · exact .keeps _ rfl rfl rfl
  · exact drained
  · exact drained
  · exact drained
  · split
    · unfold State.verifyAnswer
      simp only []
      split
      · exact round _ rfl rfl
      · exact .keeps _ rfl rfl (by simpa [st] using w)
    · exact .keeps _ rfl rfl (by rw [st]; exact w)
  all_goals exact .same

end Sys2Proof.Machine
end

