-- ==== Sys2Proof/Laws/Live.lean ====
section
/-! SUPPORT. The live lanes' shared operations: the taking of a burst's entries and what a repair step leaves alone (04, 05). -/

namespace Sys2Proof.Machine

/-- The entries a fill takes stand at the head of the queue, are at most `n`, hold an AUDIT only last, and are the most that this
allows (04, R90). -/
theorem takeEntries_spec (n : Nat) (q : List ApplyEntry) :
    q = (takeEntries n q).1 ++ (takeEntries n q).2 ∧ (takeEntries n q).1.length ≤ n ∧
    (∀ e ∈ (takeEntries n q).1.dropLast, e.frame.asksDigest = false) ∧
    ((takeEntries n q).1.length = n ∨ (takeEntries n q).2 = [] ∨
      ∃ segment d, (takeEntries n q).1.getLast? = some (.audit segment d)) ∧
    (0 < n → q ≠ [] → 1 ≤ (takeEntries n q).1.length) := by
  induction n generalizing q with
  | zero => simp [takeEntries]
  | succ n ih =>
    cases q with
    | nil => simp [takeEntries]
    | cons e q =>
      by_cases audit : ∃ segment d, e = .audit segment d
      · obtain ⟨segment, d, rfl⟩ := audit
        simp [takeEntries]
      · have step : takeEntries (n + 1) (e :: q) = (e :: (takeEntries n q).1, (takeEntries n q).2) := by
          cases e <;> first | rfl | exact absurd ⟨_, _, rfl⟩ audit
        have plain : e.frame.asksDigest = false := by
          cases e <;> first | rfl | exact absurd ⟨_, _, rfl⟩ audit
        obtain ⟨split, short, inner, most, _⟩ := ih q
        rw [step]
        refine ⟨by rw [List.cons_append, ← split], Nat.succ_le_succ short, fun x hx => ?_, ?_, fun _ _ => Nat.succ_le_succ (Nat.zero_le _)⟩
        · rcases ht : (takeEntries n q).1 with _ | ⟨y, ys⟩
          · simp [ht] at hx
          · simp only [ht, List.dropLast_cons_cons] at hx inner
            rcases List.mem_cons.1 hx with rfl | hx
            · exact plain
            · exact inner x hx
        · rcases most with most | most | ⟨segment, d, most⟩
          · exact .inl (by simp [most])
          · exact .inr (.inl most)
          · exact .inr (.inr ⟨segment, d, by rw [List.getLast?_cons, most]; rfl⟩)

/-- What repair entries leave of a lane: everything but its queue, watermark, alarm, repair list, cursor and mark. -/
theorem Lane.repair_keeps (store : Store) (set : Settings) (n : Nat) (l : Lane) :
    let t := Lane.repair store set n l
    t.state = l.state ∧ t.cause = l.cause ∧ t.facts = l.facts ∧ t.present = l.present ∧ t.lever = l.lever ∧ t.tx = l.tx ∧
      t.live.auditTimer = l.live.auditTimer ∧ t.live.nextAudit = l.live.nextAudit ∧ t.live.debt = l.live.debt ∧
      t.live.mismatches = l.live.mismatches := by
  induction n generalizing l with
  | zero => simp [Lane.repair]
  | succ n ih =>
    unfold Lane.repair
    split
    · simp
    · split
      · have keep : ∀ e, let t := (l.enqueue set e).advanceRepair
            t.state = l.state ∧ t.cause = l.cause ∧ t.facts = l.facts ∧ t.present = l.present ∧ t.lever = l.lever ∧
              t.tx = l.tx ∧ t.live.auditTimer = l.live.auditTimer ∧ t.live.nextAudit = l.live.nextAudit ∧
              t.live.debt = l.live.debt ∧ t.live.mismatches = l.live.mismatches := by
          intro e
          unfold Lane.advanceRepair Lane.enqueue Lane.testRaise
          simp only []
          split <;> split <;> simp
        obtain ⟨a1, a2, a3, a4, a5, a6, a7, a8, a9, a10⟩ :=
          ih (l.enqueue set (repairEntry store l.profile (Config.segmentRows * _ + l.live.repairOffset))).advanceRepair
        obtain ⟨b1, b2, b3, b4, b5, b6, b7, b8, b9, b10⟩ :=
          keep (repairEntry store l.profile (Config.segmentRows * _ + l.live.repairOffset))
        exact ⟨a1.trans b1, a2.trans b2, a3.trans b3, a4.trans b4, a5.trans b5, a6.trans b6, a7.trans b7, a8.trans b8,
          a9.trans b9, a10.trans b10⟩
      · simp

end Sys2Proof.Machine
end

