-- ==== Sys2Proof/Laws/StoreSteps.lean ====
section
/-! SUPPORT. All that a command can do to the record store: one lemma over every command, which every store invariant's proof
cites (01, R12, R13 and R23; 02, R29 to R31). -/

namespace Sys2Proof.Machine

/-- What the command `c` can make of the record store. -/
inductive State.StoreMoves (c : Instr) (s : State) : Store → Prop
  /-- Most commands leave the store as it is. -/
  | same : State.StoreMoves c s s.store
  /-- A reset clears it. -/
  | reset (h : c = .softReset ∨ c = .powerOn ∨ c = .resetPinAssert ∨ c = .resetEnd) : State.StoreMoves c s Store.reset
  /-- STORE_INIT begins the initialisation of an UNINITIALIZED store. -/
  | begins (requested : Nat) (h : s.store.phase = .uninitialized) : State.StoreMoves c s (s.store.begin (roundSize requested))
  /-- The initialisation completes. -/
  | completes (h : s.store.phase = .initializing) : State.StoreMoves c s s.store.complete
  /-- An INSERT is admitted. -/
  | inserts (m : List Byte) (r : Record) (row : Nat) (h : s.insertVerdict m = .ok (r, row)) :
      State.StoreMoves c s (s.store.insert row r)
  /-- An UPDATE is admitted. -/
  | updates (m : List Byte) (row : Nat) (old r : Record) (h : s.updateVerdict m = .ok (row, old, r)) :
      State.StoreMoves c s (s.store.update row old { old with body := r.body })
  /-- A RETIRE is admitted. -/
  | retires (m : List Byte) (k : Key) (row : Nat) (old : Record) (h : s.retireVerdict m = .ok (k, row, old)) :
      State.StoreMoves c s (s.store.retire k row old)

theorem State.StoreMoves.of_eq {c : Instr} {s : State} {t : Store} (h : t = s.store) : State.StoreMoves c s t := h ▸ .same

@[simp] theorem State.refuse_store (s : State) (m : List Byte) (status : Status) : (s.refuse m status).store = s.store := rfl
@[simp] theorem State.respond_store (s : State) (m : List Byte) (status : Status) (body : Payload) :
    (s.respond m status body).store = s.store := rfl
@[simp] theorem State.identify_store (s : State) (i : Slot) : (s.identify i).store = s.store := rfl
@[simp] theorem State.takeEvent_store (s : State) (i : Slot) (e : SeatEvent) : (s.takeEvent i e).store = s.store := rfl

/-- A request command moves the store as its decision does. -/
theorem State.takeRequest_storeMoves (c : Instr) (s : State) (isKind : Byte → Bool) (f : State → List Byte → State)
    (h : ∀ m rest, State.StoreMoves c s (f { s with requests := rest } m).store) : State.StoreMoves c s (s.takeRequest isKind f).store := by
  rcases State.takeRequest_cases s isKind f with e | ⟨m, rest, _, _, e⟩
  · rw [e]; exact .same
  · rw [e]; exact h m rest

/-- A command held in reset moves the store as the command itself does, or not. -/
theorem State.unlessReset_storeMoves (c : Instr) (s : State) (f : State → State) (h : State.StoreMoves c s (f s).store) :
    State.StoreMoves c s (s.unlessReset f).store := by
  unfold State.unlessReset
  split
  · exact .same
  · exact h

theorem State.decideInsert_storeMoves (c : Instr) (s : State) (m : List Byte) (rest : List (List Byte)) :
    State.StoreMoves c s (({ s with requests := rest } : State).decideInsert m).store := by
  unfold State.decideInsert
  split
  · exact .same
  · next r row h =>
    simp only [State.respond_store, State.applyChange_store]
    exact .inserts m r row h

theorem State.decideUpdate_storeMoves (c : Instr) (s : State) (m : List Byte) (rest : List (List Byte)) :
    State.StoreMoves c s (({ s with requests := rest } : State).decideUpdate m).store := by
  unfold State.decideUpdate
  split
  · exact .same
  · next row old r h =>
    split
    · exact .same
    · simp only [State.respond_store, State.applyChange_store]
      exact .updates m row old r h

theorem State.decideRetire_storeMoves (c : Instr) (s : State) (m : List Byte) (rest : List (List Byte)) :
    State.StoreMoves c s (({ s with requests := rest } : State).decideRetire m).store := by
  unfold State.decideRetire
  split
  · exact .same
  · next k row old h =>
    simp only [State.respond_store, State.applyChange_store]
    exact .retires m k row old h

theorem State.softReset_storeMoves (s : State) (m : List Byte) (rest : List (List Byte)) :
    State.StoreMoves .softReset s (({ s with requests := rest } : State).decideSoftReset m).store := by
  have e : (({ s with requests := rest } : State).decideSoftReset m).store = s.store.softReset := rfl
  rw [e, Store.softReset]
  split
  · exact .same
  · exact .reset (.inl rfl)

/-- All that one command can do to the record store. -/
theorem exec_storeMoves (c : Instr) {s t : State} (h : exec c s = .next t) : State.StoreMoves c s t.store := by
  cases c
  all_goals (injection h with h; subst h)
  case insert => exact State.takeRequest_storeMoves _ s _ _ fun m rest => State.decideInsert_storeMoves _ s m rest
  case update => exact State.takeRequest_storeMoves _ s _ _ fun m rest => State.decideUpdate_storeMoves _ s m rest
  case retire => exact State.takeRequest_storeMoves _ s _ _ fun m rest => State.decideRetire_storeMoves _ s m rest
  case find =>
    refine State.takeRequest_storeMoves _ s _ _ fun m rest => .of_eq ?_
    simp only [State.decideFind]
    (repeat' split) <;> rfl
  case readRow =>
    refine State.takeRequest_storeMoves _ s _ _ fun m rest => .of_eq ?_
    simp only [State.decideReadRow]
    (repeat' split) <;> rfl
  case storeInit =>
    refine State.takeRequest_storeMoves _ s _ _ fun m rest => ?_
    unfold State.decideStoreInit
    split
    · next h => exact .begins (fieldAt m 8 4) h
    · exact .same
  case storeStats =>
    refine State.takeRequest_storeMoves _ s _ _ fun m rest => .of_eq ?_
    simp only [State.decideStoreStats]
    (repeat' split) <;> rfl
  case laneStatus =>
    refine State.takeRequest_storeMoves _ s _ _ fun m rest => .of_eq ?_
    simp only [State.decideLaneStatus]
    (repeat' split) <;> rfl
  case laneReset =>
    refine State.takeRequest_storeMoves _ s _ _ fun m rest => .of_eq ?_
    simp only [State.decideLaneReset, State.resetLane]
    (repeat' split) <;> rfl
  case laneRelease =>
    refine State.takeRequest_storeMoves _ s _ _ fun m rest => .of_eq ?_
    simp only [State.decideLaneRelease]
    (repeat' split) <;> rfl
  case laneClearAlarm =>
    refine State.takeRequest_storeMoves _ s _ _ fun m rest => .of_eq ?_
    simp only [State.decideLaneClearAlarm]
    (repeat' split) <;> rfl
  case copyStart =>
    refine State.takeRequest_storeMoves _ s _ _ fun m rest => .of_eq ?_
    simp only [State.decideCopyStart, State.startJob]
    (repeat' split) <;> first | rfl | simp
  case copyAbort =>
    refine State.takeRequest_storeMoves _ s _ _ fun m rest => .of_eq ?_
    simp only [State.decideCopyAbort]
    (repeat' split) <;> first | rfl | simp
  case copyStatus =>
    refine State.takeRequest_storeMoves _ s _ _ fun m rest => .of_eq ?_
    simp only [State.decideCopyStatus]
    (repeat' split) <;> rfl
  case setScan =>
    refine State.takeRequest_storeMoves _ s _ _ fun m rest => .of_eq ?_
    simp only [State.decideSetScan]
    (repeat' split) <;> rfl
  case setLaneAlarm =>
    refine State.takeRequest_storeMoves _ s _ _ fun m rest => .of_eq ?_
    simp only [State.decideSetLaneAlarm]
    (repeat' split) <;> rfl
  case setAudit =>
    refine State.takeRequest_storeMoves _ s _ _ fun m rest => .of_eq ?_
    simp only [State.decideSetAudit]
    (repeat' split) <;> rfl
  case identify =>
    refine State.takeRequest_storeMoves _ s _ _ fun m rest => .of_eq ?_
    simp only [State.decideIdentify]
    rfl
  case softReset => exact State.takeRequest_storeMoves _ s _ _ fun m rest => s.softReset_storeMoves m rest
  case unknownRequestKind =>
    refine State.takeRequest_storeMoves _ s _ _ fun m rest => .of_eq ?_
    simp only [State.decideUnknown]
    rfl
  case requestPortWrite =>
    refine State.unlessReset_storeMoves _ s _ (.of_eq ?_)
    simp only [State.writeRequest]
    (repeat' split) <;> rfl
  case responsePortRead => exact .same
  case portWordWriteDiscarded => exact .same
  case powerOn => exact .reset (.inr (.inl rfl))
  case resetPinAssert => exact .reset (.inr (.inr (.inl rfl)))
  case resetEnd =>
    unfold State.endReset
    split
    · exact .reset (.inr (.inr (.inr rfl)))
    · exact .same
  case scan =>
    refine State.unlessReset_storeMoves _ s _ (.of_eq ?_)
    simp only [State.scanned]
    split <;> rfl
  case presentRise =>
    refine State.unlessReset_storeMoves _ s _ (.of_eq ?_)
    simp only [State.takePresentRise]
    (repeat' split) <;> rfl
  case presentFall =>
    refine State.unlessReset_storeMoves _ s _ (.of_eq ?_)
    simp only [State.takePresentFall, State.leaveBySeating]
    (repeat' split) <;> first | rfl | simp
  case leverClose =>
    refine State.unlessReset_storeMoves _ s _ (.of_eq ?_)
    simp only [State.takeLeverClose]
    (repeat' split) <;> rfl
  case leverOpen =>
    refine State.unlessReset_storeMoves _ s _ (.of_eq ?_)
    simp only [State.takeLeverOpen, State.leaveBySeating]
    (repeat' split) <;> first | rfl | simp
  case idAttemptComplete =>
    refine State.unlessReset_storeMoves _ s _ (.of_eq ?_)
    simp only [State.attemptEnds, State.completeAttempt, State.endIdentification]
    (repeat' split) <;> rfl
  case idNotAcknowledged =>
    refine State.unlessReset_storeMoves _ s _ (.of_eq ?_)
    simp only [State.attemptEnds, State.countNack, State.endIdentification]
    (repeat' split) <;> rfl
  case idArbitrationLost =>
    refine State.unlessReset_storeMoves _ s _ (.of_eq ?_)
    simp only [State.attemptEnds, State.countLoss, State.endIdentification]
    (repeat' split) <;> rfl
  case idWaitExpiry => exact State.unlessReset_storeMoves _ s _ .same
  case alignStepTimeout => exact State.unlessReset_storeMoves _ s _ .same
  case patternReplyTimeout => exact State.unlessReset_storeMoves _ s _ .same
  case locked =>
    refine State.unlessReset_storeMoves _ s _ (.of_eq ?_)
    split <;> rfl
  case patternResult =>
    refine State.unlessReset_storeMoves _ s _ (.of_eq ?_)
    split <;> rfl
  case transmissionComplete => exact State.unlessReset_storeMoves _ s _ .same
  case burstAck =>
    refine State.unlessReset_storeMoves _ s _ (.of_eq ?_)
    simp only [State.takeAck, State.retireBurst]
    (repeat' split) <;> first | rfl | simp
  case ackTimeout =>
    refine State.unlessReset_storeMoves _ s _ (.of_eq ?_)
    simp only [State.ackExpired]
    (repeat' split) <;> first | rfl | simp
  case transmitterFill => exact State.unlessReset_storeMoves _ s _ .same
  case auditTimerExpiry => exact State.unlessReset_storeMoves _ s _ .same
  case storeInitComplete =>
    refine State.unlessReset_storeMoves _ s _ ?_
    unfold State.completeInit
    split
    · next h _ => exact .completes h
    · exact .same
  case sweepExamination =>
    refine State.unlessReset_storeMoves _ s _ (.of_eq ?_)
    simp only [State.examineRow]
    (repeat' split) <;> rfl
  case drainRowTake =>
    refine State.unlessReset_storeMoves _ s _ (.of_eq ?_)
    simp only [State.takeRow]
    (repeat' split) <;> rfl
  case grantComplete =>
    refine State.unlessReset_storeMoves _ s _ (.of_eq ?_)
    simp only [State.completeGrant, State.handOver]
    (repeat' split) <;> first | rfl | simp
  case freezeTimerExpiry =>
    refine State.unlessReset_storeMoves _ s _ (.of_eq ?_)
    simp only [State.freezeExpired]
    (repeat' split) <;> first | rfl | simp
  case sampleTimerExpiry =>
    refine State.unlessReset_storeMoves _ s _ (.of_eq ?_)
    simp only [State.sampleExpired]
    (repeat' split) <;> rfl
  case noticePlace =>
    refine State.unlessReset_storeMoves _ s _ (.of_eq ?_)
    unfold State.placeNotice State.placeNoticeAt State.placeLaneNotice State.placeJobNotice
    (repeat' split) <;> simp

end Sys2Proof.Machine
end

