-- ==== Sys2Proof/Laws/SetupSteps.lean ====
section
/-! SUPPORT. All that a command can do to the settings and to the scanner's inputs and period: one lemma over every command (03, R45,
R47 and R48; 09, R189 to R193). -/

namespace Sys2Proof.Machine

/-- The settings, the PRESENT and LEVER inputs with their counters, and the time to the next scan. -/
structure Setup where
  settings : Settings
  present : Vector Input 16
  lever : Vector Input 16
  nextScan : Nat

/-- The setup of a part. -/
def State.setup (s : State) : Setup :=
  { settings := s.settings, present := s.scanner.present, lever := s.scanner.lever, nextScan := s.scanner.nextScan }

/-- What a command can make of the setup. -/
inductive State.SetupMoves (s : State) : Setup → Prop
  /-- Most commands leave it as it is. -/
  | same : State.SetupMoves s s.setup
  /-- A reset: the scanner at its reset values, the settings kept or at their defaults. -/
  | reset (settings : Settings) (h : settings = s.settings ∨ settings = Settings.defaults) :
      State.SetupMoves s
        { settings, present := Scanner.reset.present, lever := Scanner.reset.lever, nextScan := Scanner.reset.nextScan }
  /-- A scan whose time has come. -/
  | scans (present lever : BitVec 16) (h : s.scanner.nextScan = 0) :
      State.SetupMoves s
        { settings := s.settings, present := scanInputs s.settings.debounce s.scanner.present present
          lever := scanInputs s.settings.debounce s.scanner.lever lever, nextScan := Config.scanPeriod }
  /-- SET_SCAN writes. -/
  | setScan (requested : Nat) :
      State.SetupMoves s
        { settings := { s.settings with debounce := roundDebounce requested }
          present := s.scanner.clearCounters.present, lever := s.scanner.clearCounters.lever
          nextScan := s.scanner.nextScan }
  /-- SET_LANE_ALARM writes. -/
  | setLaneAlarm (requested : Nat) (mode : AlarmMode) :
      State.SetupMoves s { s.setup with settings := { s.settings with threshold := clamp 16 4096 requested, mode } }
  /-- SET_AUDIT writes. -/
  | setAudit (requested : Nat) :
      State.SetupMoves s { s.setup with settings := { s.settings with interval := min 255 requested } }

theorem State.SetupMoves.of_eq {s t : State} (h : t.setup = s.setup) : State.SetupMoves s t.setup := h ▸ .same

/-- What the copy engine's operations do is no change of the setup. -/
theorem State.setup_of_outside {s t : State} (h : t.outside = s.outside) : t.setup = s.setup := by
  obtain ⟨_, _, _, _, _, hs, _, _, _, hc, _⟩ := State.outside_fields h
  rw [State.setup, hs, hc, State.setup]

@[simp] theorem State.setLane_setup (s : State) (i : Slot) (l : Lane) : (s.setLane i l).setup = s.setup := rfl
@[simp] theorem State.setJob_setup (s : State) (j : JobNo) (e : Option Job) : (s.setJob j e).setup = s.setup := rfl
@[simp] theorem State.mapLanes_setup (s : State) (f : Lane → Lane) : (s.mapLanes f).setup = s.setup := rfl
@[simp] theorem State.place_setup (s : State) (m : OutMessage) : (s.place m).setup = s.setup := rfl
@[simp] theorem State.refuse_setup (s : State) (m : List Byte) (status : Status) : (s.refuse m status).setup = s.setup := rfl
@[simp] theorem State.respond_setup (s : State) (m : List Byte) (status : Status) (body : Payload) :
    (s.respond m status body).setup = s.setup := rfl
@[simp] theorem State.identify_setup (s : State) (i : Slot) : (s.identify i).setup = s.setup := rfl
@[simp] theorem State.takeEvent_setup (s : State) (i : Slot) (e : SeatEvent) : (s.takeEvent i e).setup = s.setup := rfl
@[simp] theorem State.arbitrate_setup (s : State) : s.arbitrate.setup = s.setup := State.setup_of_outside (by simp)
@[simp] theorem State.closeGrant_setup (s : State) (j : JobNo) : (s.closeGrant j).setup = s.setup :=
  State.setup_of_outside (by simp)
@[simp] theorem State.endOfWork_setup (s : State) (j : JobNo) : (s.endOfWork j).setup = s.setup :=
  State.setup_of_outside (by simp)
@[simp] theorem State.endJob_setup (s : State) (j : JobNo) (outcome : JobState) : (s.endJob j outcome).setup = s.setup :=
  State.setup_of_outside (by simp)
@[simp] theorem State.failJobOn_setup (s : State) (i : Slot) (cause : JobCause) : (s.failJobOn i cause).setup = s.setup :=
  State.setup_of_outside (by simp)
@[simp] theorem State.failBurst_setup (s : State) (i : Slot) (b : Burst) : (s.failBurst i b).setup = s.setup :=
  State.setup_of_outside (by simp)
@[simp] theorem State.reportRetired_setup (s : State) (j : JobNo) (frames : List Frame) (digest : Option Word32) :
    (s.reportRetired j frames digest).setup = s.setup := State.setup_of_outside (by simp)
@[simp] theorem State.applyChange_setup (s : State) (store : Store) (k : Kind) (row : Nat)
    (entry : Profile → Option ApplyEntry) : (s.applyChange store k row entry).setup = s.setup := by
  unfold State.applyChange
  rw [State.arbitrate_setup]
  rfl

/-- A request command moves the setup as its decision does. -/
theorem State.takeRequest_setupMoves (s : State) (isKind : Byte → Bool) (f : State → List Byte → State)
    (h : ∀ m rest, State.SetupMoves s (f { s with requests := rest } m).setup) :
    State.SetupMoves s (s.takeRequest isKind f).setup := by
  rcases State.takeRequest_cases s isKind f with e | ⟨m, rest, _, _, e⟩
  · rw [e]; exact .same
  · rw [e]; exact h m rest

/-- A command held in reset moves the setup as the command itself does, or not. -/
theorem State.unlessReset_setupMoves (s : State) (f : State → State) (h : State.SetupMoves s (f s).setup) :
    State.SetupMoves s (s.unlessReset f).setup := by
  unfold State.unlessReset
  split
  · exact .same
  · exact h

/-- All that one command can do to the setup. -/
theorem exec_setupMoves (c : Instr) {s t : State} (h : exec c s = .next t) : State.SetupMoves s t.setup := by
  cases c
  all_goals (injection h with h; subst h)
  case setScan =>
    refine State.takeRequest_setupMoves s _ _ fun m rest => ?_
    unfold State.decideSetScan
    split
    · exact .same
    · exact .same
    · exact .setScan (fieldAt m 9 2)
  case setLaneAlarm =>
    refine State.takeRequest_setupMoves s _ _ fun m rest => ?_
    unfold State.decideSetLaneAlarm
    split
    · exact .same
    · exact .same
    · split
      · exact .same
      · next mode _ => exact .setLaneAlarm (fieldAt m 9 2) mode
  case setAudit =>
    refine State.takeRequest_setupMoves s _ _ fun m rest => ?_
    unfold State.decideSetAudit
    split
    · exact .same
    · exact .same
    · exact .setAudit (fieldAt m 9 2)
  case softReset => exact State.takeRequest_setupMoves s _ _ fun m rest => .reset s.settings (.inl rfl)
  case powerOn => exact .reset s.settings (.inl rfl)
  case resetPinAssert => exact .reset s.settings (.inl rfl)
  case resetEnd =>
    unfold State.endReset
    split
    · exact .reset Settings.defaults (.inr rfl)
    · exact .same
  case scan present lever =>
    refine State.unlessReset_setupMoves s _ ?_
    unfold State.scanned
    split
    · next h => exact .scans present lever h
    · exact .same
  case responsePortRead => exact .same
  case portWordWriteDiscarded => exact .same
  case insert =>
    refine State.takeRequest_setupMoves s _ _ fun m rest => .of_eq ?_
    unfold State.decideInsert
    split <;> simp <;> rfl
  case update =>
    refine State.takeRequest_setupMoves s _ _ fun m rest => .of_eq ?_
    unfold State.decideUpdate
    (repeat' split) <;> simp <;> rfl
  case retire =>
    refine State.takeRequest_setupMoves s _ _ fun m rest => .of_eq ?_
    unfold State.decideRetire
    split <;> simp <;> rfl
  case copyStart =>
    refine State.takeRequest_setupMoves s _ _ fun m rest => .of_eq ?_
    unfold State.decideCopyStart State.startJob
    split <;> simp <;> rfl
  case copyAbort =>
    refine State.takeRequest_setupMoves s _ _ fun m rest => .of_eq ?_
    unfold State.decideCopyAbort
    (repeat' split) <;> simp <;> rfl
  case burstAck =>
    refine State.unlessReset_setupMoves s _ (.of_eq ?_)
    simp only [State.takeAck, State.retireBurst]
    (repeat' split) <;> simp
  case noticePlace =>
    refine State.unlessReset_setupMoves s _ (.of_eq ?_)
    unfold State.placeNotice State.placeNoticeAt State.placeLaneNotice State.placeJobNotice
    (repeat' split) <;> rfl
  case grantComplete =>
    refine State.unlessReset_setupMoves s _ (.of_eq ?_)
    unfold State.completeGrant State.handOver
    (repeat' split) <;> simp <;> rfl
  case find =>
    refine State.takeRequest_setupMoves s _ _ fun m rest => .of_eq ?_
    unfold State.decideFind
    (repeat' split) <;> rfl
  case readRow =>
    refine State.takeRequest_setupMoves s _ _ fun m rest => .of_eq ?_
    unfold State.decideReadRow
    (repeat' split) <;> rfl
  case storeInit =>
    refine State.takeRequest_setupMoves s _ _ fun m rest => .of_eq ?_
    unfold State.decideStoreInit
    (repeat' split) <;> rfl
  case storeStats =>
    refine State.takeRequest_setupMoves s _ _ fun m rest => .of_eq ?_
    unfold State.decideStoreStats
    (repeat' split) <;> rfl
  case laneStatus =>
    refine State.takeRequest_setupMoves s _ _ fun m rest => .of_eq ?_
    unfold State.decideLaneStatus
    (repeat' split) <;> rfl
  case laneReset =>
    refine State.takeRequest_setupMoves s _ _ fun m rest => .of_eq ?_
    simp only [State.decideLaneReset, State.resetLane]
    (repeat' split) <;> rfl
  case laneRelease =>
    refine State.takeRequest_setupMoves s _ _ fun m rest => .of_eq ?_
    simp only [State.decideLaneRelease]
    (repeat' split) <;> rfl
  case laneClearAlarm =>
    refine State.takeRequest_setupMoves s _ _ fun m rest => .of_eq ?_
    simp only [State.decideLaneClearAlarm]
    (repeat' split) <;> rfl
  case copyStatus =>
    refine State.takeRequest_setupMoves s _ _ fun m rest => .of_eq ?_
    unfold State.decideCopyStatus
    (repeat' split) <;> rfl
  case identify => exact State.takeRequest_setupMoves s _ _ fun m rest => .same
  case unknownRequestKind => exact State.takeRequest_setupMoves s _ _ fun m rest => .same
  case requestPortWrite =>
    refine State.unlessReset_setupMoves s _ (.of_eq ?_)
    simp only [State.writeRequest]
    (repeat' split) <;> rfl
  case presentRise =>
    refine State.unlessReset_setupMoves s _ (.of_eq ?_)
    simp only [State.takePresentRise]
    (repeat' split) <;> rfl
  case presentFall =>
    refine State.unlessReset_setupMoves s _ (.of_eq ?_)
    simp only [State.takePresentFall, State.leaveBySeating]
    (repeat' split) <;> first | rfl | simp
  case leverClose =>
    refine State.unlessReset_setupMoves s _ (.of_eq ?_)
    simp only [State.takeLeverClose]
    (repeat' split) <;> rfl
  case leverOpen =>
    refine State.unlessReset_setupMoves s _ (.of_eq ?_)
    simp only [State.takeLeverOpen, State.leaveBySeating]
    (repeat' split) <;> first | rfl | simp
  case idAttemptComplete =>
    refine State.unlessReset_setupMoves s _ (.of_eq ?_)
    simp only [State.attemptEnds, State.completeAttempt, State.endIdentification]
    (repeat' split) <;> rfl
  case idNotAcknowledged =>
    refine State.unlessReset_setupMoves s _ (.of_eq ?_)
    simp only [State.attemptEnds, State.countNack, State.endIdentification]
    (repeat' split) <;> rfl
  case idArbitrationLost =>
    refine State.unlessReset_setupMoves s _ (.of_eq ?_)
    simp only [State.attemptEnds, State.countLoss, State.endIdentification]
    (repeat' split) <;> rfl
  case ackTimeout =>
    refine State.unlessReset_setupMoves s _ (.of_eq ?_)
    simp only [State.ackExpired]
    (repeat' split) <;> first | rfl | simp
  case storeInitComplete =>
    refine State.unlessReset_setupMoves s _ (.of_eq ?_)
    simp only [State.completeInit]
    (repeat' split) <;> rfl
  case sweepExamination =>
    refine State.unlessReset_setupMoves s _ (.of_eq ?_)
    simp only [State.examineRow]
    (repeat' split) <;> rfl
  case drainRowTake =>
    refine State.unlessReset_setupMoves s _ (.of_eq ?_)
    simp only [State.takeRow]
    (repeat' split) <;> rfl
  case freezeTimerExpiry =>
    refine State.unlessReset_setupMoves s _ (.of_eq ?_)
    simp only [State.freezeExpired]
    (repeat' split) <;> first | rfl | simp
  case sampleTimerExpiry =>
    refine State.unlessReset_setupMoves s _ (.of_eq ?_)
    simp only [State.sampleExpired]
    (repeat' split) <;> rfl
  case locked =>
    refine State.unlessReset_setupMoves s _ (.of_eq ?_)
    (repeat' split) <;> rfl
  case patternResult =>
    refine State.unlessReset_setupMoves s _ (.of_eq ?_)
    (repeat' split) <;> rfl
  case idWaitExpiry => exact State.unlessReset_setupMoves s _ .same
  case alignStepTimeout => exact State.unlessReset_setupMoves s _ .same
  case patternReplyTimeout => exact State.unlessReset_setupMoves s _ .same
  case transmissionComplete => exact State.unlessReset_setupMoves s _ .same
  case transmitterFill => exact State.unlessReset_setupMoves s _ .same
  case auditTimerExpiry => exact State.unlessReset_setupMoves s _ .same

end Sys2Proof.Machine
end

