-- ==== Sys2Proof/WellFormed.lean ====
section
/-! DEFINITION. Which commands are well formed.

Most operands are of a type that holds no bad value (a slot is `Fin 16`, a descriptor has sixteen bytes). What is left to
check is that a reply row names the reply whose bytes it carries: a unit whose first byte is the code of another kind of
reply (10, R203) arrives under that other row. A reply with an unknown code or with no byte at all may come under any of
the three rows: it is discarded (04, R77). -/

namespace Sys2Proof

/-- The reply kind a command's bytes must not name another of: the first byte is not the code of another reply. -/
def Instr.replyCodeFits (own : Byte) (reply : List Byte) : Bool :=
  match reply with
  | [] => true
  | code :: _ => code == own || !(code == 1#8 || code == 2#8 || code == 3#8)

/-- A command is well formed. -/
def Instr.wellFormed : Instr → Bool
  | .locked _ reply => Instr.replyCodeFits 2#8 reply
  | .patternResult _ reply => Instr.replyCodeFits 3#8 reply
  | .burstAck _ reply => Instr.replyCodeFits 1#8 reply
  | _ => true

end Sys2Proof
end

