-- ==== Sys2Proof/Tests/Slice0.lean ====
section
/-! SUPPORT. Tests. First the well-formedness checks, then the spec's worked figures and one step of each command on a small
state (each names its source), and last a witness for the hypotheses of each statement. -/

open Sys2Proof Sys2Proof.Machine

namespace Sys2Proof.Tests

set_option Elab.async false

/-! ### Well-formedness -/

theorem test_wellFormed_refuses_locked_with_pattern_code : (Instr.locked 0 [3, 0, 0]).wellFormed = false := by decide
theorem test_wellFormed_refuses_pattern_with_ack_code : (Instr.patternResult 0 [1, 0, 0]).wellFormed = false := by decide
theorem test_wellFormed_refuses_ack_with_locked_code : (Instr.burstAck 0 [2, 0]).wellFormed = false := by decide
theorem test_wellFormed_takes_unknown_code : (Instr.burstAck 0 [77, 0]).wellFormed = true := by decide

/-! ### Figures of 01, 02 and 10 -/

/-- The characters "123456789". -/
def digits : List Byte := [49, 50, 51, 52, 53, 54, 55, 56, 57]

/-- 01, R9: the result is 3,421,780,262, and 0 for an empty input. -/
theorem test_crc32 : (crc32 digits).toNat = 3421780262 ∧ crc32 [] = 0 := by decide +kernel

/-- 04, R79: the check of the byte 1 is 7, of "123456789" 244, of an empty input 0. -/
theorem test_burstCheck : burstCheck [1] = 7 ∧ burstCheck digits = 244 ∧ burstCheck [] = 0 := by decide +kernel

/-- 10, R197, the worked example: 10.1.2.77/24 in table 7 encodes as 1, 0, 7, 24, 10, 1, 2, 0. -/
theorem test_key_encoding : (Key.v4 7 24 0x0A01024D#32).canonical.encode = [1, 0, 7, 24, 10, 1, 2, 0] := by decide +kernel

/-- 01, R2: two keys that differ beyond the prefix are one key. -/
theorem test_key_canonical : (Key.v4 7 24 0x0A01024D#32).canonical = (Key.v4 7 24 0x0A0102C8#32).canonical := by
  decide +kernel

/-- A body with FORWARD to next hops of the given weights, in slot 0. -/
def weighted (weights : List Nat) : Body :=
  { action := .forward, hops := weights.map fun weight => { slot := 0, port := 0, rewrite := 0, weight }
    counter := none, cls := none }

/-- The weights of a body's next hops. -/
def weightsOf (b : Body) : List Nat := b.hops.map NextHop.weight

/-- 02, section 2.5, worked figures. -/
theorem test_narrowing :
    weightsOf (weighted [200, 10, 60, 60, 30, 5]).narrow = [12, 4, 4, 2] ∧
    weightsOf (weighted [10, 10, 10, 10, 10]).narrow = [1, 1, 1, 1] ∧
    weightsOf (weighted [50, 20, 20, 20, 20, 90]).narrow = [3, 1, 1, 5] ∧
    weightsOf (weighted [8, 255]).narrow = [1, 15] := by decide +kernel

/-- The record of row 37 in 02, its values those of 10's worked figures: FORWARD, five next hops, counter 70,000, class 2. -/
def record37 : Record :=
  { key := .v4 7 24 0x0A010200#32, body := { weighted [10, 20, 30, 40, 50] with counter := some 70000, cls := some 2 } }

/-- 10, worked figures: encoding lengths. -/
theorem test_encoding_lengths :
    (record37.encode .full).length = 39 ∧ (record37.encode .compact).length = 33 ∧
    ({ record37 with body := { action := .drop, hops := [], counter := none, cls := none } }.encode .full).length = 14 := by
  decide +kernel

/-- 02, R35: a change of class alone is a PATCH on a full board and nothing on a compact one; of action and next hops, a PATCH
and a WRITE. -/
theorem test_updateEntry :
    let cls := { record37 with body := { record37.body with cls := none } }
    let dropped := { record37 with body := { record37.body with action := .drop, hops := [] } }
    updateEntry .compact 37 record37 cls = none ∧
    updateEntry .full 37 record37 cls = some (.patch 37 { action := none, hops := none, counter := none, cls := some none }) ∧
    updateEntry .full 37 record37 dropped
      = some (.patch 37 { action := some .drop, hops := some [], counter := none, cls := none }) ∧
    updateEntry .compact 37 record37 dropped = some (.write 37 (dropped.encode .compact)) := by decide +kernel

/-- 10, R202: the WIPE burst 201 is the bytes 201, 1, 1 and their check; an ALIGN burst of eight frames is 43 bytes. -/
theorem test_burst_layout :
    layoutBurst 201 [.wipe] = [201, 1, 1, burstCheck [201, 1, 1]] ∧ (layoutBurst 0 (List.replicate 8 .align)).length = 43 := by
  decide +kernel

/-- 10, R204, the worked example: compact, class 12, exponent 19, a serial number of sum 500, check byte 235. -/
def descriptor : Vector Byte 16 := #v[1, 12, 1, 19, 0, 0, 250, 250, 0, 0, 0, 0, 0, 0, 0, 235]

theorem test_descriptor :
    readDescriptor descriptor =
      some { boardClass := 12, profile := .compact, exponent := 19, serial := #v[250, 250, 0, 0, 0, 0, 0, 0] } ∧
    readDescriptor (descriptor.set 6 251) = none := by decide +kernel

/-- A reply's bytes with their check. -/
def reply (bytes : List Byte) : List Byte := bytes ++ [burstCheck bytes]

/-- 10, R203: the three replies, a wrong check, an unknown status and a count above 64. -/
theorem test_replies :
    readReply (reply [1, 40, 0, 1, 0, 0, 1, 2]) = some (.ack 40 true (some 258)) ∧
    readReply (reply [1, 40, 1, 0, 9, 9, 9, 9]) = some (.ack 40 false none) ∧
    readReply (reply [2]) = some .locked ∧ readReply (reply [3, 64]) = some (.pattern 64) ∧
    readReply [2, 0] = none ∧ readReply (reply [1, 40, 2, 0, 0, 0, 0, 0]) = none ∧ readReply (reply [3, 65]) = none := by
  decide +kernel

/-- 10, section 10.2: the messages' sizes, at the longest bodies. -/
theorem test_message_sizes :
    record37.field.length = 73 ∧ (State.reset.laneSnapshot 3).encode.length = 43 ∧
    (OutMessage.resetDone 0 0 .powerOn Store.reset).encode.length = 128 := by decide +kernel

/-! ### Figures of 07 -/

/-- 07, worked figures: the send estimate (k = 3), and Ea and Es in period 6 of 11, section 11.3 (k = 2). -/
theorem test_estimates :
    filterEstimate 3 80000 6500 = 83000 ∧ filterEstimate 3 83000 4000 = 80625 ∧ filterEstimate 2 38325 900 = 32344 ∧
    filterEstimate 2 94975 4200 = 88032 := by decide +kernel

/-- 07, worked figures: a prediction; and the three pass ends of 11, section 11.4. -/
theorem test_predictions :
    predictedTime 1200 96000 = 205 ∧ predictedTime 10000 95600 = 1714 ∧ predictedTime 3100 94975 = 535 ∧
    predictedTime 440 94975 = 76 := by decide +kernel

/-- 11, section 11.3: progress at cursor 20,000 of 65,536 is 4. -/
theorem test_progress : progressOf 20000 65536 = 4 ∧ progressOf 65536 65536 = 16 := by decide +kernel

/-! ### Small states -/

/-- The state an outcome leaves. -/
def after : Host.Outcome State Fault Refusal → State
  | .next t => t
  | .fault _ => State.reset
  | .refused _ => State.reset

/-- A request of 128 bytes with tag 1234H: its kind code and its bytes from byte 8 on. -/
def request (kind : Byte) (args : List Byte) : List Byte :=
  [0x12, 0x34, kind, 0, 0, 0, 0, 0] ++ args ++ List.replicate (120 - args.length) 0

/-- The state with one request waiting. -/
def asking (s : State) (kind : Byte) (args : List Byte) : State := { s with requests := [request kind args] }

/-- What a command answers to a request that waits in a state: the state after it, the status and the body. -/
def answer (c : Instr) (s : State) (kind : Byte) (args : List Byte) : Option (Status × Payload) :=
  (after (exec c (asking s kind args))).responses.getLast?.map fun m => (m.status, m.body)

/-- The key bytes of 10.1.2.77/24 in table 7. -/
def keyArgs : List Byte := [1, 0, 7, 24, 10, 1, 2, 77] ++ List.replicate 16 0

/-- The record bytes of that key with FORWARD to slot 2, port 5, rewrite 1, weight 10. -/
def recordArgs : List Byte := keyArgs ++ [1, 1, 2, 5, 0, 1, 10]

/-- The canonical key those bytes name. -/
def key1 : Key := .v4 7 24 0x0A010200#32

/-- The canonical record those bytes carry. -/
def record1 : Record :=
  { key := key1
    body := { action := .forward, hops := [{ slot := 2, port := 5, rewrite := 1, weight := 10 }], counter := none, cls := none } }

/-- A store of 65,536 rows, just initialised. -/
def emptyStore : Store := (Store.reset.begin 65536).complete

/-- The same store with the record in row 0. -/
def stocked : Store := emptyStore.insert 0 record1

/-- The part after reset with a store. -/
def holding (store : Store) : State := { State.reset with store }

/-- The part after reset with the stocked store. -/
def ready : State := holding stocked

/-- The facts of a full-profile board of 131,072 rows. -/
def fullBoard : BoardFacts := { boardClass := 40, profile := .full, exponent := 17, serial := Vector.replicate 8 9 }

/-- A seated and closed lane in a state. -/
def seated (state : LaneState) : Lane := { Lane.reset with state, present := true, lever := true, facts := some fullBoard }

/-- The ready part with one lane replaced. -/
def withLane (i : Slot) (l : Lane) : State := ready.setLane i l

/-- A burst as a transmitter holds it. -/
def burst (seq : Byte) (frames : List Frame) (client : Client) (resends : Nat) (snapshot : Option Word32) : Burst :=
  { seq, frames, bytes := layoutBurst seq frames, client, resends, snapshot }

/-- A transmitter that awaits the answer to a burst. -/
def awaiting (b : Burst) : Transmitter :=
  { phase := .awaiting, outstanding := some b, ackTimer := some 60, nextSeq := b.seq + 1 }

/-- A job on slot 3 in a state, in the setting of 11, section 11.1: budget 500, stall limit 3, FORCE, pass limit 10, k = 2. -/
def jobIn (state : JobState) : Job :=
  { slot := 3, profile := .full, state, sweepCursor := 0, drainCursor := 0, dirty := [], pass := 0, previous := none
    stall := 0, freezeAttempts := 0, roundsFailed := 0, freezeTimer := if state.frozen then some 1920 else none
    progress := 0
    policy := { budget := 500, stallLimit := 3, stallAction := .force, passLimit := 10, verify := true, shift := 2 }
    sampleTimer := if state.working ∧ state ≠ .wipe then some 1024 else none
    arrivals := 0, sends := 0, sampled := 0, ea := 0, es := 0, fastest := 0, slowest := 65535, lastEvaluation := none
    verifySegment := 0, answered := 0, mismatched := [], mark := false }

/-- The ready part with job 1 on lane 3, which is LOADING, and its transmitter. -/
def copying (job : Job) (tx : Transmitter) : State :=
  (withLane 3 { seated .loading with tx }).setJob 1 (some job)

/-- That part with a grant of the job. -/
def granting (job : Job) (frames : List Frame) (examined : Nat) : State :=
  { copying job Transmitter.reset with grant := some { job := 1, frames, examined, closed := false } }

/-- A timer whose time has run out, if it runs. -/
def runOut (t : Timer) : Timer := t.map fun _ => 0

/-- The part when the time of every timer has run out. -/
def due (s : State) : State :=
  ({ s with scanner := { s.scanner with nextScan := 0 } }.mapLanes fun l =>
    { l with
      alignTimer := runOut l.alignTimer, replyTimer := runOut l.replyTimer
      tx := { l.tx with ackTimer := runOut l.tx.ackTimer }
      live := { l.live with auditTimer := runOut l.live.auditTimer } }).mapJobs fun j =>
    { j with freezeTimer := runOut j.freezeTimer, sampleTimer := runOut j.sampleTimer }

/-! ### Commands: requests -/

/-- 02, R29; 01, R2 and R15: the record is stored canonical in row 0, and row 1 is on top. -/
theorem test_insert :
    let t := after (exec .insert (asking (holding emptyStore) 1 recordArgs))
    t.store.rows = [(0, record1)] ∧ t.store.topRow = some 1 ∧ t.requests = [] ∧ t.store.lookup key1 = some 0 := by
  decide +kernel

/-- 01, the example of R2: the key with another last byte is the same key. -/
theorem test_insert_exists : answer .insert ready 1 recordArgs = some (.exists_, .none) := by decide +kernel

/-- 02, R30: another body is stored in place; an equal one is OK_UNCHANGED. -/
theorem test_update :
    (after (exec .update (asking ready 2 (keyArgs ++ [2])))).store.rows =
      [(0, { record1 with body := { action := .drop, hops := [], counter := none, cls := none } })] ∧
    answer .update ready 2 recordArgs = some (.okUnchanged, .row 0) := by decide +kernel

/-- 02, R31; 01, R20 (worked figures: one segment's digests): the row is free and on top again, the digests are 0 again. -/
theorem test_retire :
    let t := after (exec .retire (asking ready 3 keyArgs))
    t.store.rows = [] ∧ t.store.topRow = some 0 ∧ t.store.lookup key1 = none ∧ t.store.digest .full 0 = 0 ∧
      t.store.digest .compact 0 = 0 ∧ stocked.digest .full 0 = crc32 (record1.encode .full) := by decide +kernel

theorem test_find :
    answer .find ready 4 keyArgs = some (.ok, .rowContent 0 (some record1)) ∧
    answer .find (holding emptyStore) 4 keyArgs = some (.notFound, .none) := by decide +kernel

/-- 02, R42: the last row is free, the next is refused. -/
theorem test_readRow :
    answer .readRow ready 5 [0, 0, 255, 255] = some (.ok, .rowContent 65535 none) ∧
    answer .readRow ready 5 [0, 1, 0, 0] = some (.badRequest, .none) := by decide +kernel

/-- 01, R12: 65,537 rounds up to 131,072. -/
theorem test_storeInit :
    (after (exec .storeInit (asking State.reset 6 [0, 1, 0, 1]))).store.size = 131072 ∧
    answer .storeInit ready 6 [0, 1, 0, 1] = some (.alreadyInit, .none) := by decide +kernel

theorem test_storeStats : answer .storeStats ready 7 [] = some (.ok, .stats 1 65535 0 65536) := by decide +kernel

/-- 11, section 11.6, step 5: position 0, job absent, transmitter IDLE with the next number kept. -/
theorem test_laneStatus :
    ((ready.setLane 3 { Lane.reset with cause := some .surpriseRemoval, tx := { Transmitter.reset with nextSeq := 78 } }).laneSnapshot
      3).encode.take 25 = [3, 0, 2, 0, 0, 0, 0, 0, 0, 0, 0, 0, 0, 0, 0, 0, 0, 0, 0, 0, 0, 0, 255, 0, 78] ∧
    answer .laneStatus ready 8 [16] = some (.badRequest, .none) := by decide +kernel

theorem test_laneReset :
    answer .laneReset (withLane 7 (seated .faulted)) 9 [7] = some (.ok, .laneState 7 .identifying) ∧
    answer .laneReset (withLane 7 (seated .loading)) 9 [7] = some (.wrongState, .none) := by decide +kernel

/-- 03, R58 and 05, R115: READY with cause RELEASED, the queue discarded, the watermark kept. -/
theorem test_laneRelease :
    let live := { Live.reset with queue := [.clear 1], watermark := 9, alarm := true }
    let l := (after (exec .laneRelease (asking (withLane 7 { seated .live with live }) 10 [7]))).lane 7
    l.state = .ready ∧ l.cause = some .released ∧ l.live.queue = [] ∧ l.live.watermark = 9 ∧ l.live.alarm = false := by
  decide +kernel

theorem test_laneClearAlarm :
    let live := { Live.reset with queue := [.clear 1], watermark := 9, alarm := true }
    let l := (after (exec .laneClearAlarm (asking (withLane 7 { seated .live with live }) 11 [7]))).lane 7
    l.live.alarm = false ∧ l.live.watermark = 1 := by decide +kernel

/-- 06, R121 and R122: budget 0 and pass limit 64 are brought into range, the job is granted its WIPE burst at once. -/
theorem test_copyStart :
    let t := after (exec .copyStart (asking (withLane 3 (seated .ready)) 12 [3, 0, 0, 3, 1, 64, 1, 2]))
    (t.job 0).map (fun j => (j.state, j.policy.budget, j.policy.passLimit)) = some (.wipe, 1, 63) ∧
      (t.lane 3).state = .loading ∧ t.grant.map (·.frames) = some [.wipe] := by decide +kernel

/-- 06, R143. -/
theorem test_copyAbort :
    let t := after (exec .copyAbort (asking (copying (jobIn .drain) Transmitter.reset) 13 [3]))
    (t.job 1).map (·.state) = some .aborted ∧ (t.lane 3).state = .ready ∧
      answer .copyAbort ready 13 [3] = some (.noJob, .none) := by decide +kernel

theorem test_copyStatus :
    answer .copyStatus (copying (jobIn .drain) Transmitter.reset) 14 [2, 3] = some (.ok, .job ((jobIn .drain).snapshot 1)) ∧
    answer .copyStatus ready 14 [1, 0] = some (.noJob, .none) := by decide +kernel

/-- 09, R191: 9 rounds up to 16; a bad action is refused. -/
theorem test_setScan :
    answer .setScan ready 15 [2, 0, 9] = some (.ok, .scanSetting true 16 true) ∧
    answer .setScan ready 15 [3] = some (.badRequest, .none) := by decide +kernel

theorem test_setLaneAlarm :
    answer .setLaneAlarm ready 16 [2, 0, 15, 2] = some (.ok, .alarmSetting true 16 .sticky true) ∧
    answer .setLaneAlarm ready 16 [2, 0, 15, 0] = some (.badRequest, .none) := by decide +kernel

/-- 09, R193: interval 0 stops a LIVE lane's audit timer. -/
theorem test_setAudit :
    let l := { seated .live with live := Live.start 10 }
    ((after (exec .setAudit (asking (withLane 7 l) 17 [2, 0, 0]))).lane 7).live.auditTimer = none ∧
    answer .setAudit ready 17 [2, 1, 0] = some (.ok, .auditSetting true 255 true) := by decide +kernel

/-- 09, R194: vendor code 5A47H, part code 7,240, revision 3. -/
theorem test_identify :
    answer .identify ready 18 [] = some (.ok, .identity .initialized 65536 .powerOn) ∧
    (Payload.identity .initialized 65536 .powerOn).encode.take 5 = [0x5A, 0x47, 28, 72, 3] := by decide +kernel

/-- 08, R187 and 01, R23: the store stays, the lanes and the queue do not. -/
theorem test_softReset :
    let t := after (exec .softReset (asking (withLane 7 (seated .live)) 19 []))
    t.store = stocked ∧ (t.lane 7).state = .empty ∧ t.responses.map (·.kind) = [.resetDone] ∧ t.resetCause = .soft := by
  decide +kernel

theorem test_unknownRequestKind : answer .unknownRequestKind ready 20 [] = some (.badRequest, .none) := by decide +kernel

/-! ### Commands: the port and resets -/

theorem test_requestPortWrite :
    (after (exec (.requestPortWrite (request 4 keyArgs)) ready)).credit = 63 ∧
    (after (exec (.requestPortWrite [1, 2, 3]) ready)).overrun = true := by decide +kernel

/-- 08, R181: RESET_DONE of a power-on is tag 0, kind 4, request kind 0, status 0; 127 bytes remove nothing. -/
theorem test_responsePortRead :
    (after (exec (.responsePortRead 128) State.reset)).readData.take 9 = [0, 0, 4, 0, 0, 0, 0, 0, 1] ∧
    (after (exec (.responsePortRead 128) State.reset)).responses = [] ∧
    (after (exec (.responsePortRead 127) State.reset)).responses.length = 1 := by decide +kernel

theorem test_portWordWriteDiscarded : exec (.portWordWriteDiscarded .credit [1, 2]) State.reset = .next State.reset := rfl

/-- 09, R196: power with the pin asserted is one reset with cause POWER_ON. -/
theorem test_resets :
    let t := after (exec .resetEnd (after (exec .resetPinAssert (after (exec .powerOn ready)))))
    t.resetCause = .powerOn ∧ t.store.phase = .uninitialized ∧ t.interrupts = 2 ∧
      (after (exec .resetEnd (after (exec .resetPinAssert ready)))).resetCause = .pin := by decide +kernel

/-! ### Commands: seating, identification and training -/

/-- 03, R45 (worked sequence: a bouncing lever): the eighth agreeing sample moves the level, an earlier bounce starts again. -/
theorem test_scan :
    let at7 := { due ready with scanner := { (due ready).scanner with present := ready.scanner.present.set 4 { level := false, count := 7 } } }
    (after (exec (.scan 16 0) at7)).scanner.delivered = [(4, .presentRise)] ∧
    (after (exec (.scan 0 0) at7)).scanner.present[4] = { level := false, count := 0 } := by decide +kernel

theorem test_presentRise :
    let t := after (exec (.presentRise 12) (withLane 12 { Lane.reset with lever := true }))
    (t.lane 12).state = .identifying ∧ t.master.fifo = [12] ∧ t.master.phase = .attempt := by decide +kernel

/-- 11, section 11.6, step 1. -/
theorem test_presentFall :
    let job := { jobIn .drain with dirty := [30200], arrivals := 140, sends := 2400 }
    let t := after (exec (.presentFall 3) (copying job (awaiting (burst 77 [.clear 0] (.job 1) 0 none))))
    (t.lane 3).state = .empty ∧ (t.lane 3).cause = some .surpriseRemoval ∧ (t.lane 3).tx.phase = .idle ∧
      (t.lane 3).tx.nextSeq = 78 ∧
      t.job 1 = some { job with state := .failed .targetLost, dirty := [], sampleTimer := none, mark := true } := by
  decide +kernel

theorem test_leverClose :
    let t := after (exec (.leverClose 5) (withLane 5 { seated .extracting with lever := false }))
    (t.lane 5).state = .identifying ∧ (t.lane 5).facts = none := by decide +kernel

/-- 11, section 11.8: EXTRACTING with the facts, the watermark and the next audit segment kept. -/
theorem test_leverOpen :
    let live := { Live.reset with queue := [.clear 1], watermark := 410, nextAudit := 9, debt := 2, mismatches := 1 }
    let l := (after (exec (.leverOpen 5) (withLane 5 { seated .live with live }))).lane 5
    l.state = .extracting ∧ l.cause = some .extraction ∧ l.facts = some fullBoard ∧
      l.live = { Live.reset with watermark := 410, nextAudit := 9, mismatches := 1 } := by decide +kernel

/-- The part with lane 12 at the head of the FIFO. -/
def identifying (nacks losses : Nat) (phase : MasterPhase) : State :=
  { withLane 12 { Lane.reset with state := .identifying, present := true, lever := true } with
    master := { fifo := [12], phase, nacks, losses, abandoned := false } }

/-- 10, R204, the example's descriptor: the lane trains. -/
theorem test_idAttemptComplete :
    let t := after (exec (.idAttemptComplete descriptor) (identifying 0 0 .attempt))
    (t.lane 12).state = .training ∧ (t.lane 12).attempt = 1 ∧ (t.lane 12).tx.phase = .sending ∧ t.master.fifo = [] := by
  decide +kernel

/-- 03, R62: the third. -/
theorem test_idNotAcknowledged :
    ((after (exec .idNotAcknowledged (identifying 2 7 .attempt))).lane 12).cause = some .idUnreadable ∧
    (after (exec .idNotAcknowledged (identifying 1 7 .attempt))).master.phase = .waiting 1000 := by decide +kernel

/-- 03, R63: the eighth. -/
theorem test_idArbitrationLost :
    ((after (exec .idArbitrationLost (identifying 2 7 .attempt))).lane 12).state = .faulted ∧
    (after (exec .idArbitrationLost (identifying 2 6 .attempt))).master.losses = 7 := by decide +kernel

/-- 03, R62: once the wait is over, and not before. -/
theorem test_idWaitExpiry :
    (after (exec .idWaitExpiry (identifying 1 0 (.waiting 0)))).master.phase = .attempt ∧
    (after (exec .idWaitExpiry (identifying 1 0 (.waiting 1)))).master.phase = .waiting 1 := by decide +kernel

/-- A lane in a training step. -/
def training (attempt : Nat) (step : TrainStep) (tests : Nat) (tx : Transmitter) : Lane :=
  { seated .training with
    attempt, step := some step, testsTaken := tests, tx
    alignTimer := if step = .align then some 9000 else none
    replyTimer := if step = .pattern ∧ tests = 64 ∧ tx.phase = .idle then some 9000 else none }

/-- A transmitter that sends a burst. -/
def sending (b : Burst) : Transmitter := { phase := .sending, outstanding := some b, ackTimer := none, nextSeq := b.seq + 1 }

theorem test_alignStepTimeout :
    ((after (exec (.alignStepTimeout 12) (due (withLane 12 (training 3 .align 0 Transmitter.reset))))).lane 12).cause = some .trainFail ∧
    ((after (exec (.alignStepTimeout 12) (due (withLane 12 (training 2 .align 0 Transmitter.reset))))).lane 12).attempt = 3 := by
  decide +kernel

theorem test_patternReplyTimeout :
    let l := (after (exec (.patternReplyTimeout 12) (due (withLane 12 (training 1 .pattern 64 Transmitter.reset))))).lane 12
    l.attempt = 2 ∧ l.step = some .align ∧ l.testsTaken = 0 ∧ l.replyTimer = none := by decide +kernel

/-- 11, section 11.1: LOCKED while burst 92 is being sent begins PATTERN, and burst 92 goes on. -/
theorem test_locked :
    let tx := sending (burst 92 alignFrames .training 0 none)
    let l := (after (exec (.locked 12 (reply [2])) (withLane 12 (training 1 .align 0 tx)))).lane 12
    l.step = some .pattern ∧ l.tx = tx ∧ l.testsTaken = 0 := by decide +kernel

theorem test_patternResult :
    let l := training 1 .pattern 64 Transmitter.reset
    ((after (exec (.patternResult 12 (reply [3, 1])) (withLane 12 l))).lane 12).state = .ready ∧
    ((after (exec (.patternResult 12 (reply [3, 2])) (withLane 12 l))).lane 12).attempt = 2 := by decide +kernel

/-! ### Commands: the link, live lanes, the store and the copy engine -/

/-- 11, section 11.1: burst 92 is released and the first TEST burst is burst 93; after burst 156 the reply timer starts. -/
theorem test_transmissionComplete :
    let first := (after (exec (.transmissionComplete 12)
      (withLane 12 (training 1 .pattern 0 (sending (burst 92 alignFrames .training 0 none)))))).lane 12
    let last := (after (exec (.transmissionComplete 12)
      (withLane 12 (training 1 .pattern 64 (sending (burst 156 [.test] .training 0 none)))))).lane 12
    first.tx.outstanding.map (fun b => (b.seq, b.frames)) = some (93, [.test]) ∧ first.testsTaken = 1 ∧
      last.tx.phase = .idle ∧ last.replyTimer = some 10000 ∧ last.tx.nextSeq = 157 := by decide +kernel

/-- 05, worked figures: one segment repaired, steps 1 and 2 (depth 3,065 to 3,072, offset 7). -/
theorem test_burstAck :
    let live := { Live.reset with queue := List.replicate 3065 (.clear 0), watermark := 3065, alarm := true }
    let tx := awaiting (burst 40 [.audit 12] .applyQueue 0 (some 5))
    let l := (after (exec (.burstAck 9 (reply [1, 40, 0, 1, 0, 0, 0, 6])) (withLane 9 { seated .live with live, tx }))).lane 9
    l.tx.phase = .idle ∧ l.live.mismatches = 1 ∧ l.live.repairs = [12] ∧ l.live.repairOffset = 7 ∧ l.live.depth = 3072 := by
  decide +kernel

/-- 04, R86: the fourth failure of a LOADING lane's burst ends the job with LANE_FAULT. -/
theorem test_ackTimeout :
    let t := after (exec (.ackTimeout 3) (due (copying (jobIn .drain) (awaiting (burst 77 [.clear 0] (.job 1) 3 none)))))
    (t.lane 3).cause = some .linkErrors ∧ (t.job 1).map (·.state) = some (.failed .laneFault) := by decide +kernel

/-- 04, R90: a fill ends after an AUDIT; 05, R104: in AUTO mode the alarm clears at half the threshold. -/
theorem test_transmitterFill :
    let live := { Live.reset with queue := [.clear 1, .audit 3 7, .clear 2], watermark := 9, alarm := true }
    let l := (after (exec (.transmitterFill 9) (withLane 9 { seated .live with live }))).lane 9
    l.tx.outstanding.map (fun b => (b.frames, b.snapshot)) = some ([.clear 1, .audit 3], some 7) ∧
      l.live.queue = [.clear 2] ∧ l.live.alarm = false ∧ l.mark = true := by decide +kernel

/-- 05, R107: with debt, two audits at a shallow queue and one unit paid. -/
theorem test_auditTimerExpiry :
    let live := { Live.start 10 with nextAudit := 15, debt := 2, watermark := 4 }
    let l := (after (exec (.auditTimerExpiry 9) (due (withLane 9 { seated .live with live })))).lane 9
    l.live.queue = [.audit 15 0, .audit 0 (stocked.digest .full 0)] ∧ l.live.debt = 1 ∧ l.live.nextAudit = 1 := by
  decide +kernel

theorem test_storeInitComplete :
    let t := after (exec .storeInitComplete (after (exec .storeInit (asking State.reset 6 [0, 0, 0, 0]))))
    t.store = emptyStore ∧ t.responses.getLast?.map (fun m => (m.tag, m.body)) = some (0x1234, .storeSize 65536) := by
  decide +kernel

/-- 06, R129: a live row gives a WRITE, a free row nothing. -/
theorem test_sweepExamination :
    let t := after (exec .sweepExamination (granting (jobIn .sweep) [] 0))
    t.grant.map (·.frames) = some [.write 0 (record1.encode .full)] ∧ (t.job 1).map (·.sweepCursor) = some 1 ∧
    (after (exec .sweepExamination t)).grant.map (fun g => (g.examined, g.frames.length)) = some (2, 1) := by decide +kernel

/-- 06, R137: the first row at or above the drain cursor; a free row gives a CLEAR. -/
theorem test_drainRowTake :
    let t := after (exec .drainRowTake (granting { jobIn .drain with dirty := [0, 9, 30], drainCursor := 5 } [] 0))
    t.grant.map (·.frames) = some [.clear 9] ∧ (t.job 1).map (fun j => (j.dirty, j.drainCursor)) = some ([0, 30], 10) := by
  decide +kernel

/-- 06, R124 and R126: the burst is handed over; then the job's own transmitter is busy and the port is free. -/
theorem test_grantComplete :
    let t := after (exec .grantComplete (granting (jobIn .wipe) [.wipe] 0))
    (t.lane 3).tx.outstanding.map (fun b => (b.frames, b.client)) = some ([.wipe], .job 1) ∧ t.grant = none := by decide +kernel

/-- 07, R163 and R164: the first expiry begins a new pass, the third ends the job. -/
theorem test_freezeTimerExpiry :
    let tx := awaiting (burst 9 [.verify 0] (.job 1) 0 none)
    ((after (exec (.freezeTimerExpiry 1) (due (copying (jobIn .verify) tx)))).job 1).map (fun j => (j.state, j.pass, j.freezeAttempts))
      = some (.drain, 1, 1) ∧
    ((after (exec (.freezeTimerExpiry 1) (due (copying { jobIn .verify with freezeAttempts := 2 } tx)))).job 1).map (·.state)
      = some (.failed .freezeExhausted) := by decide +kernel

/-- 11, section 11.3, period 1: the seed. -/
theorem test_sampleTimerExpiry :
    ((after (exec (.sampleTimerExpiry 1) (due (copying { jobIn .sweep with arrivals := 2000, sends := 6000 } Transmitter.reset)))).job 1).map
      (fun j => (j.ea, j.es, j.fastest, j.slowest, j.sampled, j.mark)) = some (32000, 96000, 6000, 6000, 1, true) := by
  decide +kernel

/-- 08, R184 (worked sequence: notices held back by a busy queue): from pointer 10 job 1 is met before lane 9, its entry is
released, and the pointer is 18. -/
theorem test_noticePlace :
    let s := { copying { jobIn .completed with mark := true } Transmitter.reset with noticePointer := 10 }
    let t := after (exec .noticePlace (s.setLane 9 { Lane.reset with mark := true }))
    t.job 1 = none ∧ t.noticePointer = 18 ∧ (t.lane 9).mark = true ∧ (after (exec .noticePlace t)).noticePointer = 10 := by
  decide +kernel

/-! ### A state in which every block works -/

/-- Whether an outstanding burst's client is the one its lane's state has. -/
def clientOk (s : State) (i : Slot) (b : Burst) : Bool :=
  match b.client with
  | .training => decide ((s.lane i).state = .training)
  | .job j => decide ((s.lane i).state = .loading) && targets i (s.job j)
  | .applyQueue => decide ((s.lane i).state = .live)

theorem client_of_ok {s : State} (h : ∀ i, ∀ b ∈ (s.lane i).tx.outstanding, clientOk s i b = true) :
    ∀ i b, (s.lane i).tx.outstanding = some b → s.ClientFits i b.client := by
  intro i b e
  have := h i b e
  unfold clientOk at this
  unfold State.ClientFits
  split at this <;> simp_all [State.targets_iff]

/-- Whether a lane's view of its inputs and its board facts are as its state has them. -/
def laneOk (l : Lane) : Bool :=
  match l.state with
  | .empty => !(l.present && l.lever) && l.facts.isNone
  | .identifying => l.present && l.lever && l.facts.isNone
  | .extracting => l.present && !l.lever
  | .faulted => l.present && l.lever
  | _ => l.present && l.lever && l.facts.isSome

theorem seating_of_ok {l : Lane} (h : laneOk l = true) : l.SeatingFits ∧ l.FactsFit := by
  unfold laneOk at h
  unfold Lane.SeatingFits Lane.FactsFit
  split at h <;> simp_all
  rcases h.1 with h | h <;> simp [h]

/-- The blocks agree in a state with an INITIALIZED store when these decidable checks pass. -/
theorem agrees_of_checks {s : State}
    (h : ((∀ i, i ∈ s.master.fifo ↔ (s.lane i).state = .identifying) ∧ s.master.fifo.Nodup ∧
      (s.master.phase = .idle ↔ s.master.fifo = []) ∧ (s.master.nacks ≤ 2 ∧ s.master.losses ≤ 7)) ∧
      (∀ i, (s.lane i).state = .loading ↔ ∃ j, targets i (s.job j) = true) ∧
      (∀ i j k, targets i (s.job j) = true → targets i (s.job k) = true → j = k) ∧ s.grant = none ∧
      (∀ i, ∀ b ∈ (s.lane i).tx.outstanding, clientOk s i b = true) ∧ (∀ i, laneOk (s.lane i) = true) ∧
      s.store.phase = .initialized) : s.BlocksAgree := by
  obtain ⟨⟨h1, h2, h3, h4⟩, h5, h6, h7, h8, h9, h10⟩ := h
  simp only [State.targets_iff] at h5 h6
  exact ⟨h1, h2, h3, h4, h5, h6, by simp [h7], client_of_ok h8, fun i => (seating_of_ok (h9 i)).1,
    fun i => (seating_of_ok (h9 i)).2, fun n => absurd h10 n⟩

theorem sound_of_checks {s : State}
    (h : (∀ i, ((s.lane i).tx.phase = .idle ↔ (s.lane i).tx.outstanding = none) ∧
      ((s.lane i).tx.ackTimer.isSome = true ↔ (s.lane i).tx.phase = .awaiting) ∧ (∀ n ∈ (s.lane i).tx.ackTimer, n ≤ 100) ∧
      ∀ b ∈ (s.lane i).tx.outstanding,
        1 ≤ b.frames.length ∧ b.frames.length ≤ 8 ∧ b.bytes = layoutBurst b.seq b.frames ∧ b.resends ≤ 3) ∧
      s.grant = none) : s.LinksSound :=
  ⟨fun i => ⟨(h.1 i).1, (h.1 i).2.1, (h.1 i).2.2.1, fun b hb =>
    let x := (h.1 i).2.2.2 b hb
    ⟨x.1, x.2.1, x.2.2.1, x.2.2.2⟩⟩, by simp [h.2]⟩

/-- The valid record and the stocked store's invariants. -/
theorem record1_valid : record1.Valid := by
  refine ⟨by decide +kernel, by decide +kernel, ?_, ?_, ?_, ?_, ?_⟩ <;> simp [record1]

theorem emptyStore_exact : emptyStore.RowsExact ∧ emptyStore.IndexExact ∧ emptyStore.DigestsExact :=
  Store.complete_exact _ (.inl rfl)

theorem stocked_exact : stocked.RowsExact ∧ stocked.IndexExact ∧ stocked.DigestsExact :=
  ⟨Store.insert_rowsExact emptyStore_exact.1 rfl (by decide +kernel) record1_valid,
   Store.insert_indexExact emptyStore_exact.2.1 (by decide +kernel) (by decide +kernel) (by decide +kernel),
   Store.insert_digestsExact emptyStore_exact.1 emptyStore_exact.2.2 rfl (by decide +kernel) (by decide +kernel) record1⟩

/-- Job 1 of the busy part. -/
def drainJob : Job := { jobIn .drain with dirty := [10, 20], drainCursor := 15, sweepCursor := 65536, progress := 16, pass := 1 }

/-- Lane 3 of the busy part. -/
def loadingLane : Lane := { seated .loading with tx := awaiting (burst 77 [.clear 7] (.job 1) 2 none) }

/-- Lane 5 of the busy part. -/
def liveLane : Lane :=
  { seated .live with
    tx := { Transmitter.reset with nextSeq := 9 }
    live := { Live.start 10 with queue := [.clear 4, .audit 2 0, .clear 9], watermark := 410, repairs := [3], repairOffset := 1200 } }

/-- Lanes 8 and 9 of the busy part. -/
def newLane : Lane := { Lane.reset with state := .identifying, present := true, lever := true }

/-- Lane 10 of the busy part. -/
def trainingLane : Lane := training 1 .align 0 (sending (burst 3 alignFrames .training 0 none))

/-- The busy part: lane 3 LOADING with job 1 in DRAIN and its burst awaited, lane 5 LIVE and repairing, lanes 8 and 9 IDENTIFYING,
lane 10 TRAINING, a request queued, and a fill waiting. -/
def busy : State :=
  { ready with
    pending := [.transmitterFill 5]
    requests := [request 4 keyArgs]
    master := { fifo := [8, 9], phase := .attempt, nacks := 1, losses := 2, abandoned := false }
    lanes := ((((ready.lanes.set 3 loadingLane).set 5 liveLane).set 8 newLane).set 9 newLane).set 10 trainingLane
    jobs := ready.jobs.set 1 (some drainJob) }

theorem busy_lanes : ∀ i, busy.lane i = Lane.reset ∨ busy.lane i = loadingLane ∨ busy.lane i = liveLane ∨
    busy.lane i = newLane ∨ busy.lane i = trainingLane := by decide +kernel

theorem busy_jobs : ∀ j, busy.job j = none ∨ busy.job j = some drainJob := by decide +kernel

theorem busy_agrees : busy.BlocksAgree := agrees_of_checks (by decide +kernel)

theorem busy_sound : busy.LinksSound := sound_of_checks (by decide +kernel)

theorem busy_queues : busy.QueuesFit :=
  ⟨by decide +kernel, by decide +kernel, by decide +kernel, by decide +kernel, by decide +kernel⟩

theorem busy_settings : busy.SettingsFit :=
  ⟨by decide +kernel, by decide +kernel, by decide +kernel, by decide +kernel, by decide +kernel, by decide +kernel⟩

theorem busy_live : ∀ i, (busy.lane i).LiveFits := by
  intro i
  rcases busy_lanes i with e | e | e | e | e <;> rw [e] <;> constructor <;> decide +kernel

theorem drainJob_fits : drainJob.FieldsFit ∧ drainJob.DirtyFits := by
  constructor <;> constructor <;> decide +kernel

theorem busy_jobsFit : busy.JobsFit := by
  intro j job h
  rcases busy_jobs j with e | e <;> rw [e] at h <;> cases h
  exact drainJob_fits

theorem busy_port : busy.PortInUse := fun _ => by decide +kernel

theorem busy_names : busy.NamesInStore := by
  have hj : ∀ j job, busy.job j = some job → job = drainJob := by
    intro j job h
    rcases busy_jobs j with e | e <;> rw [e] at h <;> cases h
    rfl
  constructor
  · intro i
    rcases busy_lanes i with e | e | e | e | e <;> rw [e] <;>
      simp [liveLane, loadingLane, newLane, trainingLane, training, seated, Lane.reset, Live.reset, ApplyEntry.InStore,
        ApplyEntry.frame, Frame.InStore, show busy.store.size = 65536 from rfl]
  · intro i
    rcases busy_lanes i with e | e | e | e | e <;> rw [e] <;> decide +kernel
  · intro i
    rcases busy_lanes i with e | e | e | e | e <;> rw [e] <;> decide +kernel
  · intro i
    rcases busy_lanes i with e | e | e | e | e <;> rw [e] <;>
      simp [liveLane, loadingLane, newLane, trainingLane, training, seated, Lane.reset, Transmitter.reset, awaiting, sending,
        burst, alignFrames, Frame.InStore, show busy.store.size = 65536 from rfl]
  · intro g hg; cases hg
  · intro j job h; rw [hj j job h]; decide +kernel
  · intro j job h; rw [hj j job h]; decide +kernel
  · intro j job h; rw [hj j job h]; decide +kernel
  · intro j job h; rw [hj j job h]; decide +kernel

/-- The busy part meets every invariant, and its step answers a next state: the hypotheses of each `Step_Keeps…`. -/
theorem witness_Step_Keeps :
    busy.store.RowsExact ∧ busy.store.IndexExact ∧ busy.store.DigestsExact ∧ busy.QueuesFit ∧ busy.LinksSound ∧
      (∀ i, (busy.lane i).LiveFits) ∧ busy.JobsFit ∧ busy.BlocksAgree ∧ busy.PortInUse ∧ busy.NamesInStore ∧ busy.SettingsFit ∧
      ∃ t, step busy = .next t ∧ (t.lane 5).tx.phase = .sending :=
  ⟨stocked_exact.1, stocked_exact.2.1, stocked_exact.2.2, busy_queues, busy_sound, busy_live, busy_jobsFit, busy_agrees,
   busy_port, busy_names, busy_settings, _, rfl, by decide +kernel⟩

/-! ### Orders of events that come together -/

/-- 03, R66: with FIFO [8, 9], the end of slot 8's attempt comes with its lever's opening and is taken after it: it is discarded.
A later end is that of slot 9's own attempt, and after a microsecond every end is. -/
theorem test_abandoned_outcome :
    let s := after (exec (.leverOpen 8) busy)
    let t := after (exec (.idAttemptComplete descriptor) s)
    s.master.fifo = [9] ∧ (t.lane 9).state = .identifying ∧ t.master = { s.master with abandoned := false } ∧
      ((after (exec (.idAttemptComplete descriptor) t)).lane 9).state = .training ∧
      ((after (exec (.idAttemptComplete descriptor) s.tick)).lane 9).state = .training := by decide +kernel

/-- 09, R193: the write first, the expiry does not happen; the expiry first, its AUDIT entry stands. -/
theorem test_setAudit_orders :
    let s := asking (due (withLane 9 { seated .live with live := Live.start 10 })) 17 [2, 0, 20]
    let written := after (exec .setAudit s)
    let expired := after (exec (.auditTimerExpiry 9) s)
    after (exec (.auditTimerExpiry 9) written) = written ∧ (written.lane 9).live.auditTimer = some 200000 ∧
      (expired.lane 9).live.queue.length = 1 ∧ ((after (exec .setAudit expired)).lane 9).live.queue.length = 1 := by
  decide +kernel

/-- 05, R113: the entry for offset 4,095 takes the segment off the list, the step goes on in the next segment, and the last segment's
end marks the notice. -/
theorem test_repairStep_across :
    let lane (repairs : List Nat) : Lane := { seated .live with live := { Live.reset with repairs, repairOffset := 4093 } }
    let t := (lane [3, 7]).repairStep stocked Settings.defaults
    let u := (lane [3]).repairStep stocked Settings.defaults
    t.live.queue.drop 2 = (.clear 16383) :: [.clear 28672, .clear 28673, .clear 28674, .clear 28675, .clear 28676] ∧
      t.live.cursor = some (7, 5) ∧ t.mark = false ∧ u.live.queue.length = 3 ∧ u.live.cursor = none ∧ u.mark = true := by
  decide +kernel

/-! ### Witnesses: the hypotheses of the statements are met together, each clause at a boundary -/

/-- The part held in reset. -/
def held : State := after (exec .powerOn ready)

/-- A part with `n` messages on its response queue. -/
def crowded (n : Nat) (s : State) : State := { s with responses := List.replicate n (s.laneNotice 0) }

theorem witness_Step_RunsFrontCommand : busy.pending = [.transmitterFill 5] := rfl

theorem witness_Step_IdleCountsTimersDown :
    ready.pending = [] ∧ ready.inReset = false ∧ held.pending = [] ∧ held.inReset = true := by decide +kernel

theorem witness_Commands_WaitInResetAndForRoom :
    held.inReset = true ∧ Instr.insert.takesKind 1 = true ∧
    256 ≤ (crowded 256 ready).responses.length + (crowded 256 ready).reserved ∧ ready.requests = [] ∧
    (∀ m ∈ (asking ready 2 []).requests.head?, Instr.insert.takesKind (byteAt m 2) = false) := by decide +kernel

theorem witness_Reset_HoldsAndEnds :
    ready.inReset = false ∧ held.inReset = true ∧ held.powerOnReset = true ∧
    (after (exec .resetPinAssert ready)).inReset = true ∧ (after (exec .resetPinAssert ready)).powerOnReset = false := by
  decide +kernel

theorem witness_SoftReset_KeepsStoreAndSettings :
    (asking (crowded 255 ready) 19 []).Offers 19 (request 19 []) [] ∧
    (asking State.reset 19 []).Offers 19 (request 19 []) [] := by decide +kernel

theorem witness_PortWrites_PlaceOrDiscard :
    ready.inReset = false ∧ (request 4 []).length = 128 ∧ (List.replicate 63 (request 4 [])).length < 64 ∧
    (List.replicate 127 (0 : Byte)).length ≠ 128 ∧ 64 ≤ (List.replicate 64 (request 4 [])).length := by decide +kernel

theorem witness_ResponseRead_ReturnsHeadMessage :
    ready.inReset = false ∧ ready.responses = [OutMessage.resetDone 0 0 .powerOn Store.reset] ∧
    (after (exec (.responsePortRead 128) ready)).responses = [] ∧
    (after (exec (.responsePortRead 128) ready)).inReset = false := by decide +kernel

/-- The ready part with its responses read and a lane's mark pending. -/
def marked (i : Slot) (pointer : Fin 20) : State :=
  { withLane i { Lane.reset with mark := true } with responses := [], noticePointer := pointer }

theorem witness_Interrupt_OnlyOntoEmptyQueue :
    (marked 3 0).responses = [] ∧ (after (exec .noticePlace (marked 3 0))).responses ≠ [] ∧
    (after (exec (.scan 0 0) (marked 3 0))).responses = [] ∧ ready.responses ≠ [] ∧
    (∃ t, exec .noticePlace (marked 3 0) = .next t) ∧ (∃ t, exec .noticePlace ready = .next t) :=
  ⟨rfl, by decide +kernel, by decide +kernel, by decide +kernel, ⟨_, rfl⟩, ⟨_, rfl⟩⟩

/-- The ready part with job 3 marked. -/
def markedJob (pointer : Fin 20) : State :=
  { ready.setJob 3 (some { jobIn .completed with mark := true }) with noticePointer := pointer }

theorem witness_NoticePlace_TakesFirstMark :
    (crowded 241 ready).responses.length + (crowded 241 ready).reserved + 16 > 256 ∧ (∀ p, ready.pendingMark p = false) ∧
    (crowded 240 (marked 3 4)).responses.length + (crowded 240 (marked 3 4)).reserved + 16 ≤ 256 ∧
    (∀ h < 19, (marked 3 4).pendingMark ((marked 3 4).noticePointer + Fin.ofNat 20 h) = false) ∧
    (marked 3 4).noticePointer + Fin.ofNat 20 19 = Fin.ofNat 20 (3 : Slot).val ∧ ((marked 3 4).lane 3).mark = true ∧
    (marked 0 0).noticePointer + Fin.ofNat 20 0 = Fin.ofNat 20 (0 : Slot).val ∧ ((marked 0 0).lane 0).mark = true ∧
    (∀ h < 19, (markedJob 0).pendingMark ((markedJob 0).noticePointer + Fin.ofNat 20 h) = false) ∧
    (markedJob 0).noticePointer + Fin.ofNat 20 19 = Fin.ofNat 20 (16 + (3 : JobNo).val) ∧
    (markedJob 0).job 3 = some { jobIn .completed with mark := true } := by decide +kernel

theorem witness_Find_AnswersByKey :
    (asking State.reset 4 keyArgs).Offers 4 (request 4 keyArgs) [] ∧ State.reset.store.phase ≠ .initialized ∧
    (asking ready 4 [4]).Offers 4 (request 4 [4]) [] ∧ requestKey (request 4 [4]) = none ∧
    requestKey (request 4 [1, 16, 0, 32]) = none ∧ (requestKey (request 4 [1, 15, 255, 32])).isSome = true ∧
    ready.store.phase = .initialized ∧ requestKey (request 4 keyArgs) = some key1 ∧ ready.store.row 0 = some record1 ∧
    record1.key = key1 := by decide +kernel

theorem witness_Find_exact :
    ready.store.IndexExact ∧ (holding emptyStore).store.IndexExact ∧
    ∀ row r, (holding emptyStore).store.row row = some r → r.key ≠ key1 :=
  ⟨stocked_exact.2.1, emptyStore_exact.2.1, fun _ _ h => nomatch h⟩

theorem witness_PlainReads_Answer :
    (asking State.reset 5 []).Offers 5 (request 5 []) [] ∧ State.reset.store.phase ≠ .initialized ∧
    (asking ready 5 [0, 1, 0, 0]).Offers 5 (request 5 [0, 1, 0, 0]) [] ∧
    ready.store.size ≤ fieldAt (request 5 [0, 1, 0, 0]) 8 4 ∧ fieldAt (request 5 [0, 0, 255, 255]) 8 4 < ready.store.size ∧
    (asking ready 7 []).Offers 7 (request 7 []) [] ∧ (asking ready 18 []).Offers 18 (request 18 []) [] ∧
    (asking ready 20 []).Offers (byteAt (request 20 []) 2) (request 20 []) [] ∧ 20 ≤ natAt (request 20 []) 2 ∧
    byteAt (request 0 []) 2 = 0 := by decide +kernel

theorem witness_PlainReads_exact : (asking ready 7 []).store.RowsExact := stocked_exact.1

theorem witness_LaneStatus_Snapshot :
    (asking busy 8 [8]).Offers 8 (request 8 [8]) [] ∧ 16 ≤ natAt (request 8 [16]) 8 ∧
    natAt (request 8 [15]) 8 = (15 : Slot).val ∧ 8 ∈ busy.master.fifo ∧ 9 ∈ busy.master.fifo ∧ 3 ∉ busy.master.fifo ∧
    (busy.lane 3).state = .loading := by decide +kernel

theorem witness_LaneStatus_agrees : (asking busy 8 [8]).BlocksAgree := agrees_of_checks (by decide +kernel)

/-- The ready part with two terminal jobs on slot 3. -/
def twoEnded : State := (ready.setJob 1 (some (jobIn .completed))).setJob 2 (some (jobIn .aborted))

theorem witness_CopyStatus_AnswersSnapshot :
    (asking busy 14 [0]).Offers 14 (request 14 [0]) [] ∧ byteAt (request 14 [3, 4]) 8 ≠ 2 ∧ 4 ≤ natAt (request 14 [1, 4]) 9 ∧
    16 ≤ natAt (request 14 [2, 16]) 9 ∧ natAt (request 14 [1, 3]) 9 = (3 : JobNo).val ∧ busy.job 3 = none ∧
    natAt (request 14 [1, 1]) 9 = (1 : JobNo).val ∧ busy.job 1 = some drainJob ∧
    natAt (request 14 [2, 15]) 9 = (15 : Slot).val ∧ (∀ j, busy.job j = none ∨ busy.job j = some drainJob) ∧
    drainJob.slot ≠ 15 ∧ natAt (request 14 [2, 3]) 9 = (3 : Slot).val ∧ drainJob.slot = 3 ∧ drainJob.state.working = true ∧
    (∀ k, busy.TargetedBy 3 k → k = 1) ∧ (∀ k, ¬ twoEnded.TargetedBy 3 k) ∧ twoEnded.job 1 = some (jobIn .completed) ∧
    (∀ k < (1 : JobNo), twoEnded.job k = none) := by
  simp only [← State.targets_iff]; decide +kernel

theorem witness_Settings_ReadAndWrite :
    (asking ready 15 [0]).Offers 15 (request 15 [0]) [] ∧ byteAt (request 15 [0]) 8 ≠ 1 ∧ byteAt (request 15 [3]) 8 ≠ 2 ∧
    byteAt (request 15 [1]) 8 = 1 ∧ byteAt (request 15 [2, 0, 17]) 8 = 2 ∧ fieldAt (request 15 [2, 0, 17]) 9 2 = 17 ∧
    (asking ready 16 [2, 16, 1, 3]).Offers 16 (request 16 [2, 16, 1, 3]) [] ∧ byteAt (request 16 [2, 16, 1, 3]) 11 ≠ 1 ∧
    byteAt (request 16 [2, 16, 1, 3]) 11 ≠ 2 ∧ natAt (request 16 [2, 16, 1, 2]) 11 = AlarmMode.sticky.code ∧
    fieldAt (request 16 [2, 16, 1, 2]) 9 2 = 4097 ∧ (asking ready 17 [2, 1, 0]).Offers 17 (request 17 [2, 1, 0]) [] ∧
    fieldAt (request 17 [2, 1, 0]) 9 2 = 256 := by decide +kernel

theorem witness_StoreInit_BeginsAndCompletes :
    (asking ready 6 []).Offers 6 (request 6 []) [] ∧ ready.store.phase ≠ .uninitialized ∧
    (asking State.reset 6 [255, 255, 255, 255]).Offers 6 (request 6 [255, 255, 255, 255]) [] ∧
    State.reset.store.phase = .uninitialized ∧
    (let s := after (exec .storeInit (asking State.reset 6 []))
     s.inReset = false ∧ s.store.phase = .initializing ∧ s.storeInitTag = some 0x1234) := by decide +kernel

/-- A store whose bucket of the key, and overflow list, are full of another key. -/
def hashFull : Store :=
  { emptyStore with
    ways := List.replicate 8 { bucket := emptyStore.bucketOf key1, entry := { key := .label 0 0, row := 1 } }
    overflow := List.replicate 256 { key := .label 0 0, row := 2 } }

/-- The ready part with a full apply queue on lane 0. -/
def backlog : State :=
  withLane 0 { seated .live with live := { Live.reset with queue := List.replicate 4096 (.clear 0), watermark := 4096 } }

theorem witness_TableChange_RefusedInOrder :
    (asking ready 1 recordArgs).Offers 1 (request 1 recordArgs) [] ∧
    some Kind.v4 = (requestRecord (request 1 recordArgs)).map (·.key.kind) ∧
    (asking ready 2 recordArgs).Offers 2 (request 2 recordArgs) [] ∧ (asking ready 3 keyArgs).Offers 3 (request 3 keyArgs) [] ∧
    some Kind.v4 = (requestKey (request 3 keyArgs)).map Key.kind ∧ State.reset.store.phase ≠ .initialized ∧
    none = (requestRecord (request 1 keyArgs)).map (·.key.kind) ∧
    (copying (jobIn .verify) Transmitter.reset).FreezeOn .v4 ∧ ¬ backlog.FreezeOn .v4 ∧ backlog.QueueFullOn .v4 ∧
    ¬ ready.FreezeOn .v4 ∧ ¬ ready.QueueFullOn .v4 ∧ requestKey (request 1 recordArgs) = some key1 ∧
    ready.store.lookup key1 ≠ none ∧ emptyStore.lookup key1 = none ∧ emptyStore.topRow ≠ none ∧
    { emptyStore with fresh := 65536 }.freeRows = [] ∧ { emptyStore with fresh := 65536 }.lookup key1 = none ∧
    8 ≤ hashFull.bucketLoad (hashFull.bucketOf key1) ∧ 256 ≤ hashFull.overflow.length ∧ hashFull.lookup key1 = none := by
  simp only [← State.frozenKind_iff, ← State.backlogged_iff]; decide +kernel

theorem witness_Insert_Admitted :
    let s := asking (holding emptyStore) 1 recordArgs
    s.Offers 1 (request 1 recordArgs) [] ∧ s.store.phase = .initialized ∧ requestRecord (request 1 recordArgs) = some record1 ∧
    ¬ s.FreezeOn record1.key.kind ∧ ¬ s.QueueFullOn record1.key.kind ∧ s.store.lookup record1.key = none ∧
    s.store.topRow = some 0 ∧ s.store.bucketLoad (s.store.bucketOf record1.key) < 8 := by
  simp only [← State.frozenKind_iff, ← State.backlogged_iff]; decide +kernel

theorem witness_Insert_stack : (holding emptyStore).store.freeRows = 0 :: emptyStore.popRow.freeRows :=
  Store.freeRows_of_topRow (by decide +kernel)

theorem witness_Insert_exact :
    (holding emptyStore).store.RowsExact ∧ (holding emptyStore).store.IndexExact ∧ (holding emptyStore).store.DigestsExact :=
  emptyStore_exact

theorem witness_Update_ReplacesBody :
    let s := asking ready 2 recordArgs
    s.Offers 2 (request 2 recordArgs) [] ∧ s.store.phase = .initialized ∧ requestRecord (request 2 recordArgs) = some record1 ∧
    ¬ s.FreezeOn record1.key.kind ∧ ¬ s.QueueFullOn record1.key.kind ∧ s.store.row 0 = some record1 ∧
    (requestRecord (request 2 (keyArgs ++ [2]))).map (·.key) = some record1.key ∧
    (requestRecord (request 2 (keyArgs ++ [2]))).map (·.body) ≠ some record1.body := by
  simp only [← State.frozenKind_iff, ← State.backlogged_iff]; decide +kernel

theorem witness_Update_exact : ready.store.RowsExact ∧ ready.store.IndexExact ∧ ready.store.DigestsExact := stocked_exact

theorem witness_Retire_FreesRow :
    let s := asking ready 3 keyArgs
    s.Offers 3 (request 3 keyArgs) [] ∧ s.store.phase = .initialized ∧ requestKey (request 3 keyArgs) = some key1 ∧
    ¬ s.FreezeOn key1.kind ∧ ¬ s.QueueFullOn key1.kind ∧ s.store.row 0 = some record1 ∧ record1.key = key1 := by
  simp only [← State.frozenKind_iff, ← State.backlogged_iff]; decide +kernel

theorem witness_Retire_exact :
    (asking ready 3 keyArgs).store.RowsExact ∧ (asking ready 3 keyArgs).store.IndexExact ∧
      (asking ready 3 keyArgs).store.DigestsExact := stocked_exact

/-- The changed groups as the statement on the apply entry counts them. -/
def changes (p : Profile) (old new : Record) : List Bool :=
  let a := old.body.inProfile p
  let b := new.body.inProfile p
  [decide (a.action ≠ b.action), decide (a.hops ≠ b.hops), decide (a.counter ≠ b.counter)]
    ++ (if p = .full then [decide (a.cls ≠ b.cls)] else [])

theorem witness_UpdateEntry_ByChangedGroups :
    let dropped := { record37 with body := { record37.body with action := .drop, hops := [] } }
    (changes .compact record37 { record37 with body := { record37.body with cls := none } }).count true = 0 ∧
    (changes .full record37 dropped).count true * 2 ≤ (changes .full record37 dropped).length ∧
    0 < (changes .full record37 dropped).count true ∧
    (changes .compact record37 dropped).length < (changes .compact record37 dropped).count true * 2 := by decide +kernel

theorem witness_Narrowing_TrimsAndScales :
    (∀ h ∈ (weighted [255, 1, 8, 9, 255]).hops, h.weight ≤ 255) ∧ (weighted []).counter = none ∧
    ({ weighted [] with counter := some 65535 } : Body).counter = some 65535 ∧
    ({ weighted [] with counter := some 65536 } : Body).narrow.counter = none := by decide +kernel

theorem witness_Record_CanonicalRoundTrip :
    requestRecord (request 1 recordArgs) = some record1 ∧ 23 < 32 ∧ [0x12, 0x34, 1, 0, 0, 0, 0, (0 : Byte)].length = 8 := by
  decide +kernel

theorem witness_Record_valid : record1.Valid := record1_valid

theorem witness_Scan_DebouncesEachInput :
    ready.inReset = false ∧ ready.scanner.nextScan ≠ 0 ∧ (due ready).inReset = false ∧ (due ready).scanner.nextScan = 0 := by
  decide +kernel

theorem witness_SeatingArrival_Identifies :
    ready.inReset = false ∧ (seated .ready).present = true ∧ (seated .ready).lever = true ∧ Lane.reset.present = false ∧
    ¬(Lane.reset.state = .empty ∧ Lane.reset.lever = true) ∧ ((withLane 2 { Lane.reset with lever := true }).lane 2).lever = true ∧
    ((withLane 2 { Lane.reset with present := true }).lane 2).present = true ∧ Lane.reset.state ≠ .extracting ∧
    ((withLane 2 { seated .extracting with lever := false }).lane 2).lever = false := by decide +kernel

theorem witness_SeatingDeparture_GivesUpWork :
    busy.inReset = false ∧ Lane.reset.present = false ∧ Lane.reset.lever = false ∧
    (∀ i, (withLane i { Lane.reset with present := true }).inReset = false) ∧
    ({ seated .extracting with lever := false } : Lane).state = .extracting ∧ (busy.lane 10).state = .training ∧
    (busy.lane 10).present = true ∧ (busy.lane 10).lever = true ∧ (busy.lane 5).state = .live ∧ (busy.lane 8).state = .identifying ∧
    busy.master.fifo = 8 :: [9] ∧ (busy.lane 9).present = true ∧ (busy.lane 9).lever = true ∧
    busy.master.fifo = 8 :: ([] ++ 9 :: []) ∧ 9 ∉ 8 :: ([] : List Slot) ∧ (busy.lane 3).state = .loading ∧
    (busy.lane 3).present = true ∧ (busy.lane 3).lever = true ∧ busy.TargetedBy 3 1 ∧ busy.job 1 = some drainJob ∧
    (∀ k, busy.TargetedBy 3 k → k = 1) := by
  simp only [← State.targets_iff]; decide +kernel

theorem witness_SeatingOrders_EndEmpty :
    busy.inReset = false ∧ (busy.lane 3).state ≠ .empty ∧ (busy.lane 3).state ≠ .extracting ∧ busy.TargetedBy 3 1 := by
  simp only [← State.targets_iff]; decide +kernel

theorem witness_SeatingOrders_agrees : busy.BlocksAgree := busy_agrees

theorem witness_Identification_EndsOrRetries :
    (identifying 0 0 .attempt).inReset = false ∧ (identifying 0 0 .attempt).master.abandoned = false ∧
    (identifying 0 0 .attempt).master.phase = .attempt ∧
    (identifying 0 0 .attempt).master.fifo = [12] ∧ ((identifying 0 0 .attempt).lane 12).state = .identifying ∧
    (descriptor.toList.map BitVec.toNat).sum % 256 = 0 ∧ descriptor[0] = 1 ∧ descriptor[2] = 1 ∧ 16 ≤ descriptor[3].toNat ∧
    ((descriptor.set 3 20).toList.map BitVec.toNat).sum % 256 ≠ 0 ∧ (identifying 1 6 .attempt).master.nacks < 2 ∧
    (identifying 2 6 .attempt).master.nacks = 2 ∧ (identifying 1 6 .attempt).master.losses < 7 ∧
    (identifying 1 7 .attempt).master.losses = 7 ∧ (identifying 1 7 (.waiting 0)).master.phase = .waiting 0 ∧
    (identifying 1 7 (.waiting 1)).master.phase ≠ .waiting 0 ∧ (identifying 1 7 (.waiting 1)).master.phase ≠ .attempt ∧
    (after (exec (.leverOpen 12) (identifying 0 0 .attempt))).master.abandoned = true ∧
    (after (exec (.leverOpen 12) (identifying 0 0 .attempt))).inReset = false := by
  decide +kernel

theorem witness_Training_StepsPassOrFail :
    ready.inReset = false ∧ readReply (reply [2]) = some .locked ∧ readReply (reply [3, 1]) = some (.pattern 1) ∧
    readReply (reply [3, 2]) = some (.pattern 2) ∧ (training 1 .align 0 Transmitter.reset).state = .training ∧
    (training 1 .align 0 Transmitter.reset).step = some .align ∧
    ((due (withLane 12 (training 1 .align 0 Transmitter.reset))).lane 12).alignTimer = some 0 ∧
    ((due (withLane 12 (training 1 .pattern 64 Transmitter.reset))).lane 12).replyTimer = some 0 ∧
    (training 1 .align 0 Transmitter.reset).alignTimer ≠ some 0 ∧ readReply (reply [3, 64]) = some (.pattern 64) ∧
    readReply (reply [3, 65]) = none ∧ readReply (reply [2, 0]) = none ∧
    (training 1 .pattern 64 Transmitter.reset).replyTimer.isSome = true ∧
    (training 1 .pattern 64 Transmitter.reset).step = some .pattern ∧ (training 2 .align 0 Transmitter.reset).attempt < 3 ∧
    (training 3 .align 0 Transmitter.reset).attempt = 3 ∧ (seated .ready).state ≠ .training := by decide +kernel

theorem witness_TransmissionComplete_AwaitsOrContinues :
    ready.inReset = false ∧ (awaiting (burst 7 [.clear 1] .applyQueue 0 none)).phase ≠ .sending ∧
    (sending (burst 7 [.clear 1] .applyQueue 0 none)).phase = .sending ∧ (seated .live).state ≠ .training ∧
    (training 1 .pattern 63 (sending (burst 7 [.test] .training 0 none))).testsTaken < 64 ∧
    (training 1 .pattern 64 (sending (burst 7 [.test] .training 0 none))).testsTaken = 64 ∧
    (training 1 .pattern 64 (sending (burst 7 [.test] .training 0 none))).step = some .pattern ∧
    (training 1 .align 0 (sending (burst 7 alignFrames .training 0 none))).step = some .align ∧
    (seated .training).state = .training ∧ (seated .training).step = none := by decide +kernel

/-- A live lane 9 that awaits the answer to a burst ending with AUDIT. -/
def auditing (repairs : List Nat) : State :=
  withLane 9
    { seated .live with
      tx := awaiting (burst 40 [.clear 1, .audit 12] .applyQueue 0 (some 5)), live := { Live.start 10 with repairs } }

theorem witness_BurstAck_RetiresAndCompares :
    (auditing []).inReset = false ∧ readReply (reply [1, 40, 0, 1, 0, 0, 0, 6]) = some (.ack 40 true (some 6)) ∧
    (ready.lane 9).tx.phase ≠ .awaiting ∧ ((auditing []).lane 9).tx.phase = .awaiting ∧
    ((auditing []).lane 9).tx.outstanding = some (burst 40 [.clear 1, .audit 12] .applyQueue 0 (some 5)) ∧
    readReply (reply [1, 41, 0, 1, 0, 0, 0, 6]) = some (.ack 41 true (some 6)) ∧
    readReply (reply [1, 40, 0, 1, 0, 0, 0, 5]) = some (.ack 40 true (some 5)) ∧
    [Frame.clear 1, .audit 12].getLast? = some (.audit 12) ∧ (6 : Word32) ≠ 5 ∧
    (12 ∈ ((auditing [12]).lane 9).live.repairs) ∧ (12 ∉ ((auditing []).lane 9).live.repairs) ∧
    readReply (reply [1, 77, 0, 0, 0, 0, 0, 0]) = some (.ack 77 true none) ∧
    (busy.lane 3).tx.outstanding = some (burst 77 [.clear 7] (.job 1) 2 none) ∧
    (∀ f ∈ [Frame.clear 7].getLast?, f.asksDigest = false) ∧ readReply (reply [1, 40, 2, 0, 0, 0, 0, 0]) = none ∧
    ((auditing []).lane 9).tx.ackTimer ≠ some 0 := by decide +kernel

theorem witness_BurstFailure_ResendsThenFaults :
    busy.inReset = false ∧ (busy.lane 3).tx.phase = .awaiting ∧ ((due busy).lane 3).tx.ackTimer = some 0 ∧
    (due busy).inReset = false ∧ ((due busy).lane 3).tx.phase = .awaiting ∧
    (busy.lane 3).tx.outstanding = some (burst 77 [.clear 7] (.job 1) 2 none) ∧
    readReply (reply [1, 77, 1, 0, 0, 0, 0, 0]) = some (.ack 77 false none) ∧
    readReply (reply [1, 40, 0, 0, 0, 0, 0, 0]) = some (.ack 40 true none) ∧
    [Frame.clear 1, .audit 12].getLast? = some (.audit 12) ∧ (Frame.audit 12).asksDigest = true ∧
    (let s := copying (jobIn .drain) (awaiting (burst 77 [.clear 7] (.job 1) 3 none))
     (s.lane 3).tx.outstanding = some (burst 77 [.clear 7] (.job 1) 3 none) ∧ (s.lane 3).state = .loading ∧
     s.TargetedBy 3 1 ∧ s.job 1 = some (jobIn .drain) ∧ (∀ k, s.TargetedBy 3 k → k = 1)) ∧
    ((auditing []).lane 9).state = .live := by
  simp only [← State.targets_iff]; decide +kernel

theorem witness_SequenceNumbers_OnePerBurst :
    (∃ t, exec (.transmitterFill 5) busy = .next t ∧ (t.lane 5).tx.nextSeq = (busy.lane 5).tx.nextSeq + 1) ∧
    (Instr.transmitterFill 5) ≠ .softReset := ⟨⟨_, rfl, by decide +kernel⟩, by decide⟩

theorem witness_Fill_TakesHeadEntries :
    busy.inReset = false ∧ (busy.lane 3).state ≠ .live ∧ (busy.lane 5).state = .live ∧ (busy.lane 5).tx.phase = .idle ∧
    (busy.lane 5).live.queue ≠ [] ∧ (busy.lane 5).live.repairs ≠ [] ∧
    ((withLane 9 { seated .live with live := { Live.reset with queue := [.clear 1] } }).lane 9).live.repairs = [] := by
  decide +kernel

theorem witness_RepairStep_PlacesRows :
    liveLane.live.repairs = 3 :: [] ∧ liveLane.live.repairOffset < 4096 ∧
    (let live := { Live.reset with repairs := [15], repairOffset := 4087 }
     min 8 (3072 - live.queue.length) < 4096 - live.repairOffset) ∧
    (let live := { Live.reset with repairs := [3, 7], repairOffset := 4095 }
     live.repairOffset < 4096 ∧ 4096 - live.repairOffset ≤ min 8 (3072 - live.queue.length)) := by decide +kernel

/-- A live lane 9 with a depth and a debt. -/
def owing (depth debt : Nat) : State :=
  withLane 9 { seated .live with live := { Live.start 10 with queue := List.replicate depth (.clear 0), watermark := 4096, debt } }

theorem witness_AuditExpiry_PlacesOrDefers :
    ready.inReset = false ∧ (ready.lane 9).state ≠ .live ∧ ((owing 2049 7).lane 9).state = .live ∧
    ((due (owing 2049 7)).lane 9).live.auditTimer = some 0 ∧ ((due (owing 2049 7)).lane 9).state = .live ∧
    ((owing 2049 7).lane 9).live.auditTimer ≠ some 0 ∧ 2048 < ((owing 2049 7).lane 9).live.queue.length ∧
    ((owing 2049 7).lane 9).live.debt < 8 ∧ ((owing 2048 7).lane 9).live.queue.length = 2048 ∧
    8 ≤ ((owing 4095 8).lane 9).live.debt ∧ ((owing 4095 8).lane 9).live.queue.length < 4096 ∧
    ((owing 2047 1).lane 9).live.queue.length < 2048 ∧ 0 < ((owing 2047 1).lane 9).live.debt ∧
    4096 ≤ ((owing 4096 8).lane 9).live.queue.length := by decide +kernel

theorem witness_LaneRequests_MoveLane :
    16 ≤ natAt (request 10 [16]) 8 ∧ (asking busy 10 [16]).Offers 10 (request 10 [16]) [] ∧
    (asking busy 11 [15]).Offers 11 (request 11 [15]) [] ∧ natAt (request 11 [15]) 8 = (15 : Slot).val ∧
    (busy.lane 15).state ≠ .live ∧ natAt (request 10 [5]) 8 = (5 : Slot).val ∧ (busy.lane 5).state = .live ∧
    (asking busy 9 [5]).Offers 9 (request 9 [5]) [] ∧ (busy.lane 5).present = true ∧ (busy.lane 5).lever = true ∧
    (let l := (withLane 6 { seated .faulted with lever := false }).lane 6
     l.state = .faulted ∧ l.lever = false) := by decide +kernel

theorem witness_CopyStart_ChecksAndAccepts :
    (asking (withLane 15 (seated .ready)) 12 [15, 0, 0, 0, 1, 0, 1, 7]).Offers 12 (request 12 [15, 0, 0, 0, 1, 0, 1, 7]) [] ∧
    16 ≤ natAt (request 12 [16]) 8 ∧ byteAt (request 12 [0, 0, 0, 0, 3]) 12 ≠ 1 ∧ byteAt (request 12 [0, 0, 0, 0, 3]) 12 ≠ 2 ∧
    natAt (request 12 [15, 0, 0, 0, 1, 0, 1, 7]) 8 = (15 : Slot).val ∧ byteAt (request 12 [15, 0, 0, 0, 1, 0, 1, 7]) 12 = 1 ∧
    byteAt (request 12 [15, 0, 0, 0, 1, 0, 1, 7]) 14 = 1 ∧ State.reset.store.phase ≠ .initialized ∧
    ready.store.phase = .initialized ∧ (ready.lane 15).state ≠ .ready ∧ ((withLane 15 (seated .ready)).lane 15).state = .ready ∧
    (seated .ready).facts = some fullBoard ∧ ready.store.size ≤ 2 ^ fullBoard.exponent ∧
    2 ^ ({ fullBoard with exponent := 16 } : BoardFacts).exponent < 131072 ∧ ready.job 0 = none ∧ busy.job 1 ≠ none ∧
    (∀ k < (0 : JobNo), ready.job k ≠ none) ∧
    (∀ j, { ready with jobs := Vector.replicate 4 (some (jobIn .completed)) }.job j ≠ none) := by decide +kernel

theorem witness_CopyAbort_EndsJob :
    (asking busy 13 [3]).Offers 13 (request 13 [3]) [] ∧ 16 ≤ natAt (request 13 [16]) 8 ∧
    natAt (request 13 [3]) 8 = (3 : Slot).val ∧ (∀ j, ¬ ready.TargetedBy 3 j) ∧ busy.TargetedBy 3 1 ∧
    busy.job 1 = some drainJob ∧ (∀ k, busy.TargetedBy 3 k → k = 1) ∧ (busy.lane 3).state = .loading := by
  simp only [← State.targets_iff]; decide +kernel

theorem witness_Grant_ReadsRows :
    (let s := granting { jobIn .sweep with sweepCursor := 65535 } (List.replicate 7 (.clear 0)) 255
     s.inReset = false ∧ s.grant = some { job := 1, frames := List.replicate 7 (.clear 0), examined := 255, closed := false } ∧
     s.job 1 = some { jobIn .sweep with sweepCursor := 65535 } ∧ 65535 < s.store.size) ∧
    (let job := { jobIn .drain with dirty := [0, 9, 30], drainCursor := 9 }
     job.dirty.Pairwise (· < ·) ∧ 9 ∈ job.dirty ∧ job.drainCursor ≤ 9 ∧
     (∀ other ∈ job.dirty, job.drainCursor ≤ other → 9 ≤ other) ∧ (granting job [] 0).job 1 = some job) ∧
    (∀ row ∈ ({ jobIn .drain with dirty := [8], drainCursor := 9 } : Job).dirty, row < 9) ∧
    (jobIn .wipe).state ≠ .sweep := by decide +kernel

theorem witness_GrantComplete_HandsOver :
    (granting (jobIn .sweep) [] 255).inReset = false ∧
    (granting (jobIn .sweep) [] 255).grant = some { job := 1, frames := [], examined := 255, closed := false } ∧
    (granting (jobIn .sweep) [] 255).job 1 = some (jobIn .sweep) ∧ (jobIn .sweep).sweepCursor < stocked.size ∧
    (granting (jobIn .sweep) [] 256).grant = some { job := 1, frames := [], examined := 256, closed := false } ∧
    (granting (jobIn .sweep) (List.replicate 8 (.clear 0)) 9).grant.map (·.frames.length) = some 8 := by decide +kernel

theorem witness_JobTimers_Expire :
    (let s := due (copying { jobIn .verify with freezeAttempts := 1 } Transmitter.reset)
     s.inReset = false ∧ s.job 1 = some { jobIn .verify with freezeAttempts := 1, freezeTimer := some 0, sampleTimer := some 0 }) ∧
    (jobIn .verify).state = .verify ∧
    (let s := due (copying { jobIn .freeze with freezeAttempts := 2 } Transmitter.reset)
     (s.job 1).map (fun j => (j.freezeAttempts, j.freezeTimer)) = some (2, some 0) ∧ (s.lane 3).state = .loading) ∧
    (jobIn .freeze).freezeTimer ≠ some 0 ∧ (jobIn .drain).freezeTimer ≠ some 0 ∧ (jobIn .sweep).sampleTimer ≠ some 0 ∧
    (jobIn .wipe).sampleTimer ≠ some 0 := by decide +kernel

/-- Boundary values: exact division, and one above it; the greatest dirty set with the least estimate (07, section 7.2). -/
theorem witness_PredictedTime_Formula :
    1200 * 16 * 1024 ≤ 205 * 96000 ∧ ¬ 1200 * 16 * 1024 ≤ 204 * 96000 ∧ predictedTime 524288 1 = 16777215 ∧
    predictedTime 1 0 = 16777215 ∧ predictedTime 0 0 = 0 := by decide +kernel

/-- A drain job at the end of its pass, with a dirty count, an estimate and a policy. -/
def passEnd (dirty : List Nat) (es budget stall pass : Nat) (stallAction : StallAction) : Job :=
  { jobIn .drain with
    dirty, es, stall, pass, drainCursor := 65536, previous := some dirty.length
    policy := { budget, stallLimit := 3, stallAction, passLimit := 10, verify := true, shift := 2 } }

theorem witness_PassEnd_Evaluates :
    (let s := copying (passEnd [4] 16384 1 0 1 .force) Transmitter.reset
     s.job 1 = some (passEnd [4] 16384 1 0 1 .force) ∧ s.granted 1 = false ∧ (s.lane 3).tx.outstanding = none ∧
     (s.lane 3).state = .loading) ∧
    (∀ row ∈ (passEnd [4] 16384 1 0 1 .force).dirty, row < (passEnd [4] 16384 1 0 1 .force).drainCursor) ∧
    predictedTime 1 16384 ≤ 1 ∧ 1 < predictedTime 1 16383 ∧
    min 3 ((passEnd [4] 16383 1 2 1 .force).stall + 1) = (passEnd [4] 16383 1 2 1 .force).policy.stallLimit ∧
    (passEnd [4] 16383 1 0 10 .abandon).pass = (passEnd [4] 16383 1 0 10 .abandon).policy.passLimit ∧
    (copying { jobIn .sweep with sweepCursor := 65536 } Transmitter.reset).store.size = 65536 := by decide +kernel

theorem witness_EndOfWork_WaitsOrCutsOver :
    (granting (jobIn .drain) [] 0).granted 1 = true ∧ (busy.lane 3).tx.outstanding.isSome = true ∧
    (jobIn .sweep).sweepCursor < stocked.size ∧ (∃ row ∈ drainJob.dirty, drainJob.drainCursor ≤ row) ∧
    (let s := copying (jobIn .freeze) Transmitter.reset
     s.job 1 = some (jobIn .freeze) ∧ s.granted 1 = false ∧ (s.lane 3).tx.outstanding = none ∧ (s.lane 3).state = .loading ∧
     (jobIn .freeze).dirty = [] ∧ (jobIn .freeze).policy.verify = true) := by decide +kernel

theorem witness_BurstReport_MovesJob :
    (copying (jobIn .wipe) Transmitter.reset).job 1 = some (jobIn .wipe) ∧
    (copying (jobIn .sweep) Transmitter.reset).job 1 = some (jobIn .sweep) ∧
    (let job := { jobIn .verify with answered := 15, verifySegment := 16, roundsFailed := 1 }
     let s := copying job Transmitter.reset
     s.job 1 = some job ∧ job.answered + 1 = s.store.size / 4096 ∧ (s.lane 3).state = .loading ∧ s.granted 1 = false ∧
     job.mismatched = [] ∧ dirtyInsert 15 job.mismatched ≠ [] ∧ job.roundsFailed < 2 ∧ job.freezeTimer.isSome = true ∧
     job.dirty.Pairwise (· < ·)) ∧
    (jobIn .aborted).state.working = false := by decide +kernel

/-- The ready part with jobs in FREEZE (entry 3) and SWEEP (entry 0), each with work and an IDLE transmitter. -/
def twoClasses : State :=
  { (ready.setJob 3 (some { jobIn .freeze with dirty := [5] })).setJob 0 (some { jobIn .sweep with slot := 4 }) with
    freezePointer := 1, loadPointer := 1 }

theorem witness_Arbiter_GrantsFirstEligible :
    (granting (jobIn .drain) [] 0).grant.isSome = true ∧ (∀ j, ready.eligible j = false) ∧ twoClasses.grant = none ∧
    twoClasses.eligible (twoClasses.freezePointer + 2) = true ∧ (twoClasses.freezePointer + 2 : JobNo) = 3 ∧
    (∀ h < (2 : JobNo), twoClasses.eligible (twoClasses.freezePointer + h) = false ∨
      twoClasses.freezeClass (twoClasses.freezePointer + h) = false) ∧
    (let s := twoClasses.setJob 3 none
     s.eligible (s.loadPointer + 3) = true ∧ (∀ h < (3 : JobNo), s.eligible (s.loadPointer + h) = false) ∧
     (∀ j, s.eligible j = false ∨ s.freezeClass j = false)) := by decide +kernel

theorem witness_Freeze_HoldsMaster :
    (let s := copying (jobIn .freeze) Transmitter.reset
     s.store.phase = .initialized ∧ s.job 1 = some (jobIn .freeze) ∧ (jobIn .freeze).state.frozen = true ∧
     (after (exec (.scan 0 0) s)).job 1 = some (jobIn .freeze)) := by decide +kernel

theorem witness_Freeze_exact :
    let s := copying (jobIn .freeze) Transmitter.reset
    s.store.RowsExact ∧ s.store.IndexExact ∧ s.store.DigestsExact ∧ ∃ t, exec (.scan 0 0) s = .next t :=
  ⟨stocked_exact.1, stocked_exact.2.1, stocked_exact.2.2, _, rfl⟩

/-- A job with verify OFF whose last freeze burst is awaited. -/
def lastBurst : State :=
  copying { jobIn .freeze with policy := { (jobIn .freeze).policy with verify := false } }
    (awaiting (burst 77 [.clear 7] (.job 1) 0 none))

theorem witness_Live_OnlyAtCutOver :
    lastBurst.BlocksAgree ∧ lastBurst.LinksSound ∧
    ∃ t, exec (.burstAck 3 (reply [1, 77, 0, 0, 0, 0, 0, 0])) lastBurst = .next t ∧ (lastBurst.lane 3).state ≠ .live ∧
      (t.lane 3).state = .live :=
  ⟨agrees_of_checks (by decide +kernel), sound_of_checks (by decide +kernel), _, rfl, by decide +kernel, by decide +kernel⟩

end Sys2Proof.Tests
end

section
/-! SUPPORT. Numbers in bytes (10): a field's width bounds its value, a number survives being laid out and read back,
and where in a message a field stands. -/

namespace Sys2Proof.Machine

/-! ### Numbers as bytes -/

theorem ofBytes_concat (l : List Byte) (b : Byte) : ofBytes (l ++ [b]) = ofBytes l * 256 + b.toNat := by
  simp [ofBytes]

/-- `n` bytes hold a number below 256 to the power `n`. -/
theorem ofBytes_lt (l : List Byte) : ofBytes l < 256 ^ l.length := by
  induction l using List.reverseRecOn with
  | nil => simp [ofBytes]
  | append_singleton l b ih =>
    have hb := b.isLt
    rw [ofBytes_concat, List.length_append, List.length_singleton, Nat.pow_succ]
    omega

@[simp] theorem toBytes_length (n v : Nat) : (toBytes n v).length = n := by
  induction n generalizing v with
  | zero => rfl
  | succ n ih => simp [toBytes, ih]

/-- A number laid out in `n` bytes reads back as its last `n` digits to the base 256. -/
theorem ofBytes_toBytes (n v : Nat) : ofBytes (toBytes n v) = v % 256 ^ n := by
  induction n generalizing v with
  | zero => simp [toBytes, ofBytes, Nat.mod_one]
  | succ n ih =>
    rw [toBytes, ofBytes_concat, ih, BitVec.toNat_ofNat, Nat.pow_succ' (n := n), Nat.mod_mul]
    omega

/-! ### Fields of a message -/

theorem natAt_lt (m : List Byte) (i : Nat) : natAt m i < 256 := (byteAt m i).isLt

theorem fieldAt_lt (m : List Byte) (i n : Nat) : fieldAt m i n < 256 ^ n := by
  have h := ofBytes_lt ((List.range n).map fun k => byteAt m (i + k))
  rwa [List.length_map, List.length_range] at h

@[simp] theorem byteAt_cons_zero (b : Byte) (m : List Byte) : byteAt (b :: m) 0 = b := rfl

/-- A byte behind another stands where it stands in the rest. -/
theorem byteAt_cons (b : Byte) (m : List Byte) {i : Nat} (h : 0 < i) : byteAt (b :: m) i = byteAt m (i - 1) := by
  obtain ⟨k, rfl⟩ := Nat.exists_eq_add_of_lt h
  simp [byteAt]

/-- A byte behind others stands where it stands in the rest. -/
theorem byteAt_append (pre m : List Byte) {i : Nat} (h : pre.length ≤ i) :
    byteAt (pre ++ m) i = byteAt m (i - pre.length) := by
  simp [byteAt, List.getElem?_append_right h]

/-- A field behind a byte stands where it stands in the rest. -/
theorem fieldAt_cons (b : Byte) (m : List Byte) {i : Nat} (n : Nat) (h : 0 < i) :
    fieldAt (b :: m) i n = fieldAt m (i - 1) n := by
  simp only [fieldAt]
  congr 2
  funext k
  rw [byteAt_cons b m (by omega), Nat.sub_add_comm h]

/-- A field behind other bytes stands where it stands in the rest. -/
theorem fieldAt_append (pre m : List Byte) {i : Nat} (n : Nat) (h : pre.length ≤ i) :
    fieldAt (pre ++ m) i n = fieldAt m (i - pre.length) n := by
  simp only [fieldAt]
  congr 2
  funext k
  rw [byteAt_append pre m (by omega), Nat.sub_add_comm h]

/-- A number laid out at the head reads back. -/
@[simp] theorem fieldAt_toBytes (n v : Nat) (m : List Byte) : fieldAt (toBytes n v ++ m) 0 n = v % 256 ^ n := by
  have bytes : (List.range n).map (fun k => byteAt (toBytes n v ++ m) (0 + k)) = toBytes n v := by
    refine List.ext_getElem (by simp) fun k _ hk => ?_
    simp [byteAt, List.getElem?_append_left hk, List.getElem?_eq_getElem hk]
  rw [fieldAt, bytes, ofBytes_toBytes]

/-- A number laid out in one byte at the head reads back. -/
@[simp] theorem byteAt_toBytes_one (v : Nat) (m : List Byte) : byteAt (toBytes 1 v ++ m) 0 = BitVec.ofNat 8 v := rfl

end Sys2Proof.Machine
end

section
/-! SUPPORT. What the part takes in (01, R2 to R6): canonical keys, and requests whose record is valid and canonical.
-/

namespace Sys2Proof.Machine

/-! ### Canonical keys -/

/-- Bit `i` of an address, counted from its most significant end, stays exactly among the first `plen` (01, R2). -/
theorem clearBeyond_getMsbD {w : Nat} (plen : Nat) (addr : BitVec w) {i : Nat} (hi : i < w) :
    (clearBeyond plen addr).getMsbD i = (decide (i < plen) && addr.getMsbD i) := by
  have outside : (~~~(BitVec.allOnes w >>> plen)).getMsbD i = decide (i < plen) := by
    simp only [BitVec.getMsbD_not, BitVec.getMsbD_ushiftRight, BitVec.getMsbD_allOnes, hi]
    by_cases h : i < plen
    · simp [h]
    · have : i - plen < w := by omega
      simp [h, this]
  rw [clearBeyond, BitVec.getMsbD_and, outside, Bool.and_comm]

theorem clearBeyond_clearBeyond {w : Nat} (plen : Nat) (addr : BitVec w) :
    clearBeyond plen (clearBeyond plen addr) = clearBeyond plen addr := by
  rw [clearBeyond, clearBeyond, BitVec.and_assoc, BitVec.and_self]

@[simp] theorem Key.canonical_valid (k : Key) : k.canonical.valid = k.valid := by cases k <;> rfl

theorem Key.canonical_canonical (k : Key) : k.canonical.canonical = k.canonical := by
  cases k <;> simp only [Key.canonical, clearBeyond_clearBeyond]

/-- The key a request names is in range and canonical (01, R2 and R3). -/
theorem requestKey_sound {m : List Byte} {k : Key} (h : requestKey m = some k) : k.valid = true ∧ k.canonical = k := by
  unfold requestKey at h
  split at h
  · next key _ =>
    split at h
    · next hv => cases h; exact ⟨by rw [Key.canonical_valid, hv], key.canonical_canonical⟩
    · cases h
  · cases h

/-! ### Bodies -/

/-- The next-hop list a request carries (01, R4). -/
theorem readHops_sound {m : List Byte} {a : Action} {hops : List NextHop} (h : readHops m a = some hops) :
    (a = .forward → 1 ≤ hops.length ∧ hops.length ≤ 8) ∧ (a ≠ .forward → hops = []) ∧
      ∀ x ∈ hops, x.slot ≤ 15 ∧ x.port ≤ 63 ∧ x.rewrite ≤ 65535 ∧ 1 ≤ x.weight ∧ x.weight ≤ 255 := by
  cases a with
  | drop => cases h; simp
  | punt => cases h; simp
  | forward =>
    simp only [readHops] at h
    split at h
    · next ok =>
      obtain ⟨low, high, valid⟩ := ok
      cases h
      refine ⟨fun _ => by simpa using ⟨low, high⟩, fun ne => absurd rfl ne, fun x hx => ?_⟩
      obtain ⟨slot_fits, port_fits, weight_pos⟩ : x.slot ≤ 15 ∧ x.port ≤ 63 ∧ 1 ≤ x.weight := by
        simpa [NextHop.valid] using List.all_eq_true.1 valid x hx
      obtain ⟨i, _, rfl⟩ := List.mem_map.1 hx
      have rewrite_fits := fieldAt_lt m (36 + 5 * i) 2
      have weight_fits := natAt_lt m (38 + 5 * i)
      exact ⟨slot_fits, port_fits, Nat.le_of_lt_succ rewrite_fits, weight_pos, Nat.le_of_lt_succ weight_fits⟩
    · cases h

/-- The counter index a request carries (01, R5). -/
theorem readCounter_sound {m : List Byte} {v : Option Nat} (h : readCounter m = some v) : ∀ c ∈ v, c ≤ 262143 := by
  unfold readCounter at h
  split at h
  · cases h; simp
  · split at h
    · next fits => cases h; simpa using fits
    · cases h

/-- The class override a request carries (01, R5). -/
theorem readClass_sound {m : List Byte} {v : Option Nat} (h : readClass m = some v) : ∀ c ∈ v, c ≤ 7 := by
  unfold readClass at h
  split at h
  · cases h; simp
  · split at h
    · next fits => cases h; simpa using fits
    · cases h

/-- The body a request carries is within its limits (01, R4 and R5). -/
theorem requestBody_valid {m : List Byte} {b : Body} (h : requestBody m = some b) : b.Valid := by
  unfold requestBody at h
  split at h
  · cases h
  · split at h
    · next hh hc hl =>
      cases h
      obtain ⟨forward, other, fit⟩ := readHops_sound hh
      exact ⟨forward, other, fit, readCounter_sound hc, readClass_sound hl⟩
    · cases h

/-- The parts of the record a request carries. -/
theorem requestRecord_eq_some {m : List Byte} {r : Record} (h : requestRecord m = some r) :
    requestKey m = some r.key ∧ requestBody m = some r.body := by
  unfold requestRecord at h
  split at h
  · next hk hb => cases h; exact ⟨hk, hb⟩
  · cases h

/-- What the part takes in is valid and canonical (01, R6). -/
theorem requestRecord_valid {m : List Byte} {r : Record} (h : requestRecord m = some r) : r.Valid := by
  obtain ⟨hk, hb⟩ := requestRecord_eq_some h
  obtain ⟨key_valid, key_canonical⟩ := requestKey_sound hk
  exact ⟨key_valid, key_canonical, requestBody_valid hb⟩

end Sys2Proof.Machine
end

section
/-! SUPPORT. The record field of a response read back from a request (10, R199): where each of its fields stands
behind an eight-byte header, and what the reader makes of it. -/

namespace Sys2Proof.Machine

/-! ### The lengths of the parts -/

@[simp] theorem Key.field_length (k : Key) : k.field.length = 24 := by cases k <;> simp [Key.field]

@[simp] theorem NextHop.encode_length (h : NextHop) : h.encode.length = 5 := by simp [NextHop.encode]

theorem NextHop.flatMap_encode_length (hops : List NextHop) : (hops.flatMap NextHop.encode).length = 5 * hops.length := by
  induction hops with
  | nil => rfl
  | cons h hops ih => simp only [List.flatMap_cons, List.length_append, NextHop.encode_length, ih, List.length_cons]; omega

@[simp] theorem hopsField_length (hops : List NextHop) : (hopsField hops).length = 40 := by simp [hopsField]

@[simp] theorem optionField_length (n : Nat) (v : Option Nat) : (optionField n v).length = n + 1 := by
  cases v <;> simp [optionField]

/-! ### The key -/

/-- A key's fields behind eight bytes read back as the key (10, R199). -/
theorem readKey_field {k : Key} (hv : k.valid = true) {header : List Byte} (hh : header.length = 8) (tail : List Byte) :
    readKey (header ++ (k.field ++ tail)) = some k := by
  cases k with
  | v4 table plen addr =>
    obtain ⟨table_fits, plen_fits⟩ : table ≤ 4095 ∧ plen ≤ 32 := by simpa [Key.valid] using hv
    have table_read : table % 65536 = table := Nat.mod_eq_of_lt (by omega)
    have plen_read : plen % 256 = plen := Nat.mod_eq_of_lt (by omega)
    have addr_read : addr.toNat % 4294967296 = addr.toNat := Nat.mod_eq_of_lt addr.isLt
    simp [readKey, Key.field, natAt, byteAt_append, byteAt_cons, fieldAt_append, fieldAt_cons, hh, table_read, plen_read,
      addr_read]
  | v6 table plen addr =>
    obtain ⟨table_fits, plen_fits⟩ : table ≤ 4095 ∧ plen ≤ 128 := by simpa [Key.valid] using hv
    have table_read : table % 65536 = table := Nat.mod_eq_of_lt (by omega)
    have plen_read : plen % 256 = plen := Nat.mod_eq_of_lt (by omega)
    have addr_read : addr.toNat % 340282366920938463463374607431768211456 = addr.toNat := Nat.mod_eq_of_lt addr.isLt
    simp [readKey, Key.field, natAt, byteAt_append, byteAt_cons, fieldAt_append, fieldAt_cons, hh, table_read, plen_read,
      addr_read]
  | label table value =>
    obtain ⟨table_fits, value_fits⟩ : table ≤ 4095 ∧ value ≤ 1048575 := by simpa [Key.valid] using hv
    have table_read : table % 65536 = table := Nat.mod_eq_of_lt (by omega)
    have value_read : value % 4294967296 = value := Nat.mod_eq_of_lt (by omega)
    simp [readKey, Key.field, natAt, byteAt_append, fieldAt_append, fieldAt_cons, hh, table_read, value_read]

/-! ### The body -/

/-- A next-hop entry laid out in its slot reads back. -/
theorem readHop_encode {x : NextHop} (hs : x.slot ≤ 15) (hp : x.port ≤ 63) (hr : x.rewrite ≤ 65535) (hw : x.weight ≤ 255)
    {pre : List Byte} {i : Nat} (hi : pre.length = 34 + 5 * i) (post : List Byte) :
    readHop (pre ++ (x.encode ++ post)) i = x := by
  have slot_read : x.slot % 256 = x.slot := Nat.mod_eq_of_lt (by omega)
  have port_read : x.port % 256 = x.port := Nat.mod_eq_of_lt (by omega)
  have rewrite_read : x.rewrite % 65536 = x.rewrite := Nat.mod_eq_of_lt (by omega)
  have weight_read : x.weight % 256 = x.weight := Nat.mod_eq_of_lt (by omega)
  simp [readHop, NextHop.encode, natAt, byteAt_append, fieldAt_append, Nat.add_sub_add_right, hi, slot_read, port_read,
    rewrite_read, weight_read]

/-- A valid body has eight next-hop entries at most (01, R4). -/
theorem Body.Valid.hops_fit {b : Body} (hb : b.Valid) : b.hops.length ≤ 8 := by
  obtain ⟨forward, other, _⟩ := hb
  by_cases ha : b.action = .forward
  · exact (forward ha).2
  · simp [other ha]

/-- Eight entries at most are laid out whole. -/
theorem hopsField_eq {hops : List NextHop} (h : hops.length ≤ 8) :
    ∃ fill, hopsField hops = hops.flatMap NextHop.encode ++ fill := by
  refine ⟨(List.replicate 40 0).take (40 - 5 * hops.length), ?_⟩
  rw [hopsField, List.take_append, NextHop.flatMap_encode_length, List.take_of_length_le]
  rw [NextHop.flatMap_encode_length]
  omega

/-- The entry at position `i` of a list stands behind the five bytes of each entry before it. -/
theorem flatMap_encode_split {hops : List NextHop} {i : Nat} (hi : i < hops.length) :
    hops.flatMap NextHop.encode =
      (hops.take i).flatMap NextHop.encode ++ (hops[i].encode ++ (hops.drop (i + 1)).flatMap NextHop.encode) := by
  rw [← List.flatMap_cons, ← List.drop_eq_getElem_cons hi, ← List.flatMap_append, List.take_append_drop]

/-- The next-hop slots behind 34 bytes read back as the list. -/
theorem map_readHop_hopsField {b : Body} (hb : b.Valid) {pre : List Byte} (hp : pre.length = 34) (post : List Byte) :
    (List.range b.hops.length).map (readHop (pre ++ (hopsField b.hops ++ post))) = b.hops := by
  obtain ⟨fill, hf⟩ := hopsField_eq hb.hops_fit
  refine List.ext_getElem (by simp) fun i _ hi => ?_
  obtain ⟨_, _, fit, _⟩ := hb
  obtain ⟨slot_fits, port_fits, rewrite_fits, _, weight_fits⟩ := fit _ (List.getElem_mem hi)
  have before : (pre ++ (b.hops.take i).flatMap NextHop.encode).length = 34 + 5 * i := by
    rw [List.length_append, NextHop.flatMap_encode_length, List.length_take, hp]
    omega
  have entry := readHop_encode slot_fits port_fits rewrite_fits weight_fits before
    ((b.hops.drop (i + 1)).flatMap NextHop.encode ++ (fill ++ post))
  rw [List.getElem_map, List.getElem_range, hf, flatMap_encode_split hi]
  simpa only [List.append_assoc] using entry

/-- A next-hop list within its limits reads back under its action. -/
theorem readHops_of_slots {m : List Byte} {b : Body} (hb : b.Valid) (count : natAt m 33 = b.hops.length)
    (slots : (List.range b.hops.length).map (readHop m) = b.hops) : readHops m b.action = some b.hops := by
  obtain ⟨forward, other, fit, _, _⟩ := hb
  cases ha : b.action with
  | forward =>
    have ok : b.hops.all NextHop.valid = true := List.all_eq_true.2 fun x hx => by
      obtain ⟨slot_fits, port_fits, _, weight_fits, _⟩ := fit x hx
      simp [NextHop.valid, slot_fits, port_fits, weight_fits]
    simp [readHops, count, slots, forward ha, ok]
  | drop => rw [other (by simp [ha])]; rfl
  | punt => rw [other (by simp [ha])]; rfl

/-- The counter group behind 74 bytes reads back. -/
theorem readCounter_optionField {v : Option Nat} (fits : ∀ c ∈ v, c ≤ 262143) {pre : List Byte} (hp : pre.length = 74)
    (post : List Byte) : readCounter (pre ++ (optionField 4 v ++ post)) = some v := by
  cases v with
  | none => simp [readCounter, optionField, natAt, byteAt_append, hp]
  | some c =>
    have c_fits : c ≤ 262143 := fits c rfl
    have c_read : c % 4294967296 = c := Nat.mod_eq_of_lt (by omega)
    simp [readCounter, optionField, natAt, byteAt_append, fieldAt_append, fieldAt_cons, hp, c_read, c_fits]

/-- The class group behind 79 bytes reads back. -/
theorem readClass_optionField {v : Option Nat} (fits : ∀ c ∈ v, c ≤ 7) {pre : List Byte} (hp : pre.length = 79)
    (post : List Byte) : readClass (pre ++ (optionField 1 v ++ post)) = some v := by
  cases v with
  | none => simp [readClass, optionField, natAt, byteAt_append, hp]
  | some c =>
    have c_fits : c ≤ 7 := fits c rfl
    have c_read : c % 256 = c := Nat.mod_eq_of_lt (by omega)
    simp [readClass, optionField, natAt, byteAt_append, byteAt_cons, hp, c_read, c_fits]

/-- The action byte reads back. -/
theorem readAction_of_code {m : List Byte} {a : Action} (h : byteAt m 32 = a.code) : readAction m = some a := by
  unfold readAction natAt
  rw [h]
  cases a <;> rfl

/-- The body behind a key field reads back (01, R6; 10, R199). -/
theorem requestBody_field {r : Record} (hb : r.body.Valid) {header : List Byte} (hh : header.length = 8)
    (tail : List Byte) : requestBody (header ++ (r.field ++ tail)) = some r.body := by
  have ⟨_, _, _, counter_fits, class_fits⟩ := hb
  have count_read : r.body.hops.length % 256 = r.body.hops.length := Nat.mod_eq_of_lt (by have := hb.hops_fit; omega)
  have action_read : readAction (header ++ (r.field ++ tail)) = some r.body.action :=
    readAction_of_code (by simp [Record.field, byteAt_append, hh])
  have count : natAt (header ++ (r.field ++ tail)) 33 = r.body.hops.length := by
    simp [Record.field, natAt, byteAt_append, byteAt_cons, hh, count_read]
  have slots := map_readHop_hopsField hb
    (pre := header ++ (r.key.field ++ r.body.action.code :: toBytes 1 r.body.hops.length)) (by simp [hh])
    (optionField 4 r.body.counter ++ (optionField 1 r.body.cls ++ tail))
  have counter_read := readCounter_optionField counter_fits
    (pre := header ++ (r.key.field ++ r.body.action.code :: (toBytes 1 r.body.hops.length ++ hopsField r.body.hops)))
    (by simp [hh]) (optionField 1 r.body.cls ++ tail)
  have class_read := readClass_optionField class_fits
    (pre := header ++ (r.key.field ++ r.body.action.code :: (toBytes 1 r.body.hops.length ++
      (hopsField r.body.hops ++ optionField 4 r.body.counter)))) (by simp [hh]) tail
  have layout : header ++ (r.field ++ tail) = header ++ (r.key.field ++ r.body.action.code :: (toBytes 1 r.body.hops.length ++
      (hopsField r.body.hops ++ (optionField 4 r.body.counter ++ (optionField 1 r.body.cls ++ tail))))) := by
    simp [Record.field]
  simp only [List.append_assoc, List.cons_append, ← layout] at slots counter_read class_read
  simp only [requestBody, action_read, readHops_of_slots hb count slots, counter_read, class_read]

/-- The key at the head of a record field reads back as the canonical key it is. -/
theorem requestKey_field {r : Record} (hr : r.Valid) {header : List Byte} (hh : header.length = 8) (tail : List Byte) :
    requestKey (header ++ (r.field ++ tail)) = some r.key := by
  obtain ⟨key_valid, key_canonical, _⟩ := hr
  have key_read : readKey (header ++ (r.field ++ tail)) = some r.key := by
    simpa only [Record.field, List.append_assoc] using readKey_field key_valid hh _
  simp only [requestKey, key_read, key_valid, key_canonical, if_true]

/-- Settles O23: what is taken in has passed the checks of its parts, and each part of the layout reads back on its own. -/
theorem record_canonicalRoundTrip : Obligations.Record_CanonicalRoundTrip := by
  refine ⟨⟨fun m r => requestRecord_valid, fun w plen addr i => clearBeyond_getMsbD plen addr⟩, ?_⟩
  intro r header tail hr hh
  obtain ⟨_, _, body_valid⟩ := id hr
  have key_read := requestKey_field hr hh tail
  have body_read := requestBody_field body_valid hh tail
  rw [List.append_assoc]
  exact ⟨by simp only [requestRecord, key_read, body_read], key_read⟩

end Sys2Proof.Machine
end

section
/-! SUPPORT. The record store's invariants, command by command (01, R10 to R23): each move of the store keeps each
invariant, and a step is one move. -/

namespace Sys2Proof.Machine

/-! ### One step of the store -/

/-- Time does not touch the store. -/
@[simp] theorem State.tick_store (s : State) : s.tick.store = s.store := by
  unfold State.tick
  split <;> rfl

/-- All that one step can do to the record store. -/
theorem step_storeMoves {s t : State} (h : step s = .next t) :
    t.store = s.store ∨ ∃ c rest, State.StoreMoves c { s with pending := rest } t.store := by
  unfold step at h
  split at h
  · injection h with h
    exact .inl (h ▸ s.tick_store)
  · next c rest _ => exact .inr ⟨c, rest, exec_storeMoves c h⟩

/-- A property of the store that holds and that every move of the store keeps, holds after a step. -/
theorem step_keeps_of_storeMoves {P : Store → Prop} {s t : State} (h : step s = .next t) (hs : P s.store)
    (moves : ∀ (a : State) (c : Instr) (store : Store), a.store = s.store → State.StoreMoves c a store → P store) :
    P t.store := by
  rcases step_storeMoves h with e | ⟨c, rest, m⟩
  · rwa [e]
  · exact moves { s with pending := rest } c t.store rfl m

/-! ### The stores of a reset and of an initialisation -/

/-- A store that is not INITIALIZED, holds nothing and has a size as its state has it meets the three invariants. -/
theorem Store.exact_of_empty {s : Store} (hp : s.phase ≠ .initialized) (hz : s.phase = .uninitialized → s.size = 0)
    (ha : s.phase ≠ .uninitialized → allowedSize s.size) (hr : s.rows = []) (hw : s.ways = []) (ho : s.overflow = []) :
    s.RowsExact ∧ s.IndexExact ∧ s.DigestsExact := by
  have no_row : ∀ row, s.row row = none := fun row => by simp [Store.row, hr]
  have no_entry : s.entries = [] := by simp [Store.entries, hw, ho]
  refine ⟨⟨hz, ha, ?_, ?_, ?_, fun _ => hr, fun h => absurd h hp, fun h => absurd h hp⟩, ⟨?_, ?_, ?_, ?_, ?_, ?_⟩,
    ⟨fun h => absurd h hp, fun h => absurd h hp, fun h => absurd h hp⟩⟩
  · simp [hr]
  · simp [hr]
  · simp [hr]
  · simp [no_entry]
  · simp [no_entry, no_row]
  · simp [hw]
  · simp [Store.bucketLoad, hw]
  · simp [ho]
  · simp [ho]

/-- The cleared store meets the three invariants (01, R23). -/
theorem Store.reset_exact : Store.reset.RowsExact ∧ Store.reset.IndexExact ∧ Store.reset.DigestsExact :=
  Store.exact_of_empty (by decide) (fun _ => rfl) (fun h => absurd rfl h) rfl rfl rfl

/-- A requested size is rounded up to an allowed one (01, R12). -/
theorem roundSize_allowed (requested : Nat) : allowedSize (roundSize requested) := by
  unfold allowedSize roundSize
  split
  · simp
  · split
    · simp
    · split <;> simp

/-- While it is being initialised the stack holds no row yet (01, R12). -/
@[simp] theorem Store.begin_freeRows (s : Store) (size : Nat) : (s.begin size).freeRows = [] := by
  simp [Store.begin, Store.freeRows]

/-- The store as its initialisation begins meets the three invariants (01, R12). -/
theorem Store.begin_exact (s : Store) {size : Nat} (h : allowedSize size) :
    (s.begin size).RowsExact ∧ (s.begin size).IndexExact ∧ (s.begin size).DigestsExact :=
  Store.exact_of_empty (by simp [Store.begin]) (by simp [Store.begin]) (fun _ => h) rfl rfl rfl

/-- A store in its initialisation has an allowed size. -/
theorem Store.RowsExact.size_initializing {s : Store} (h : s.RowsExact) (hp : s.phase = .initializing) :
    allowedSize s.size :=
  h.size_allowed (by simp [hp])

/-! ### Each move keeps each invariant -/

/-- The record that an UPDATE leaves: the old key with the carried body, valid and canonical. -/
theorem Record.Valid.withBody {old r : Record} (ho : old.Valid) (hr : r.Valid) :
    ({ old with body := r.body } : Record).Valid := by
  obtain ⟨key_valid, key_canonical, _⟩ := ho
  obtain ⟨_, _, body_valid⟩ := hr
  exact ⟨key_valid, key_canonical, body_valid⟩

/-- Every move of the store keeps the row table and the free-row stack exact. -/
theorem State.StoreMoves.rowsExact {c : Instr} {s : State} {store : Store} (m : State.StoreMoves c s store)
    (h : s.store.RowsExact) : store.RowsExact := by
  cases m with
  | same => exact h
  | reset => exact Store.reset_exact.1
  | begins requested => exact (s.store.begin_exact (roundSize_allowed requested)).1
  | completes hp => exact (s.store.complete_exact (h.size_initializing hp)).1
  | inserts m r row hv =>
    obtain ⟨hi, carried, _, _, _, top, _⟩ := State.insertVerdict_ok hv
    exact Store.insert_rowsExact h hi top (requestRecord_valid carried)
  | updates m row old r hv =>
    obtain ⟨_, carried, _, _, _, live⟩ := State.updateVerdict_ok hv
    exact Store.update_rowsExact h live ((h.live live).2.withBody (requestRecord_valid carried))
  | retires m k row old hv =>
    obtain ⟨hi, _, _, _, _, live⟩ := State.retireVerdict_ok hv
    exact Store.retire_rowsExact h hi k live

/-- Every move of the store keeps the key index exact. -/
theorem State.StoreMoves.indexExact {c : Instr} {s : State} {store : Store} (m : State.StoreMoves c s store)
    (h : s.store.RowsExact) (hx : s.store.IndexExact) : store.IndexExact := by
  cases m with
  | same => exact hx
  | reset => exact Store.reset_exact.2.1
  | begins requested => exact (s.store.begin_exact (roundSize_allowed requested)).2.1
  | completes hp => exact (s.store.complete_exact (h.size_initializing hp)).2.1
  | inserts m r row hv =>
    obtain ⟨hi, _, _, _, absent, top, place⟩ := State.insertVerdict_ok hv
    exact Store.insert_indexExact hx (h.top hi top).2 absent place
  | updates m row old r hv =>
    obtain ⟨_, _, _, _, _, live⟩ := State.updateVerdict_ok hv
    exact Store.update_indexExact hx live rfl
  | retires m k row old hv =>
    obtain ⟨_, _, _, _, found, live⟩ := State.retireVerdict_ok hv
    obtain ⟨r, hr, hk⟩ := (Store.lookup_eq_some_row hx k row).1 found
    rw [live] at hr
    cases hr
    exact Store.retire_indexExact hx live hk

/-- Every move of the store keeps the digests exact. -/
theorem State.StoreMoves.digestsExact {c : Instr} {s : State} {store : Store} (m : State.StoreMoves c s store)
    (h : s.store.RowsExact) (hd : s.store.DigestsExact) : store.DigestsExact := by
  cases m with
  | same => exact hd
  | reset => exact Store.reset_exact.2.2
  | begins requested => exact (s.store.begin_exact (roundSize_allowed requested)).2.2
  | completes hp => exact (s.store.complete_exact (h.size_initializing hp)).2.2
  | inserts m r row hv =>
    obtain ⟨hi, _, _, _, _, top, _⟩ := State.insertVerdict_ok hv
    exact Store.insert_digestsExact h hd hi (h.top hi top).1 (h.top hi top).2 r
  | updates m row old r hv =>
    obtain ⟨hi, _, _, _, _, live⟩ := State.updateVerdict_ok hv
    exact Store.update_digestsExact h hd hi live _
  | retires m k row old hv =>
    obtain ⟨hi, _, _, _, _, live⟩ := State.retireVerdict_ok hv
    exact Store.retire_digestsExact h hd hi k live

/-! ### Every step -/

/-- Settles O51: no move of the store, valid records taken in included, breaks the row table or the stack. -/
theorem step_keepsRowsAndStack : Obligations.Step_KeepsRowsAndStack := fun _ _ h hs =>
  step_keeps_of_storeMoves hs h fun _ _ _ e m => m.rowsExact (e ▸ h)

/-- Settles O52: each move of the store keeps the index, a RETIRE because the key's entry names the row of its record. -/
theorem step_keepsKeyIndex : Obligations.Step_KeepsKeyIndex := fun _ _ h hx hs =>
  step_keeps_of_storeMoves hs hx fun _ _ _ e m => m.indexExact (e ▸ h) (e ▸ hx)

/-- Settles O53: each move of the store XORs into its segment's digests what it changes in the segment's rows. -/
theorem step_keepsDigests : Obligations.Step_KeepsDigests := fun _ _ h hd hs =>
  step_keeps_of_storeMoves hs hd fun _ _ _ e m => m.digestsExact (e ▸ h) (e ▸ hd)

end Sys2Proof.Machine
end

section
/-! SUPPORT. Table changes and lookups (02): the answer of each command in closed form, and what an admitted change
makes of the store's lookups, overflow list and digests. -/

namespace Sys2Proof.Machine

/-! ### Taking a request and answering it -/

/-- A request command on an offered request of its kind is its decision on the state without that request. -/
theorem State.Offers.run {s : State} {code : Byte} {m : List Byte} {rest : List (List Byte)} (h : s.Offers code m rest)
    (f : State → List Byte → State) :
    s.takeRequest (· == code) f = f { s with requests := rest } m :=
  State.takeRequest_offers h (by simp)

/-- The beginning of a grant does not look at the request queue. -/
theorem State.beginGrant_withRequests (s : State) (rest : List (List Byte)) (j : JobNo) :
    ({ s with requests := rest } : State).beginGrant j = { s.beginGrant j with requests := rest } := by
  have same : ({ s with requests := rest } : State).job j = s.job j := rfl
  unfold State.beginGrant
  rw [same]
  split
  · rfl
  · split <;> rfl

/-- The arbiter does not look at the request queue. -/
theorem State.arbitrate_withRequests (s : State) (rest : List (List Byte)) :
    ({ s with requests := rest } : State).arbitrate = { s.arbitrate with requests := rest } := by
  have eligible : ∀ j, ({ s with requests := rest } : State).eligible j = s.eligible j := fun _ => rfl
  have frozen : ∀ j, ({ s with requests := rest } : State).freezeClass j = s.freezeClass j := fun _ => rfl
  unfold State.arbitrate
  simp only [eligible, frozen]
  split
  · rfl
  · split
    · next j _ => exact State.beginGrant_withRequests { s with freezePointer := j + 1 } rest j
    · split
      · next j _ => exact State.beginGrant_withRequests { s with loadPointer := j + 1 } rest j
      · rfl

/-- An admitted change and its answer, on the state without the request. -/
theorem State.applyChange_respond (s : State) (m : List Byte) (rest : List (List Byte)) (store : Store) (k : Kind) (row : Nat)
    (entry : Profile → Option ApplyEntry) (status : Status) (body : Payload) :
    (({ s with requests := rest } : State).applyChange store k row entry).respond m status body =
      (s.admission store k row entry).answered m rest status body := by
  rw [State.applyChange_eq, ← State.respond_eq_answered]
  exact congrArg (·.respond m status body) (State.arbitrate_withRequests { s with
    store
    lanes := s.lanes.map (Lane.admitted s.settings.threshold k entry)
    jobs := s.jobs.map (Option.map (Job.offered k row)) } rest)

/-! ### The decisions -/

/-- What R29 admits. -/
theorem State.insertVerdict_pass {s : State} {m : List Byte} {r : Record} {row : Nat}
    (hp : s.store.phase = .initialized) (hm : requestRecord m = some r) (hf : ¬ s.FreezeOn r.key.kind)
    (hq : ¬ s.QueueFullOn r.key.kind) (hl : s.store.lookup r.key = none) (ht : s.store.topRow = some row)
    (hc : s.store.canPlace r.key = true) : s.insertVerdict m = .ok (r, row) := by
  have checks := State.admissionChecks_pass (kind := fun r : Record => r.key.kind) hp hf hq
  simp [State.insertVerdict, hm, checks, hl, ht, hc]

/-- What R30 admits. -/
theorem State.updateVerdict_pass {s : State} {m : List Byte} {r old : Record} {row : Nat}
    (hp : s.store.phase = .initialized) (hm : requestRecord m = some r) (hf : ¬ s.FreezeOn r.key.kind)
    (hq : ¬ s.QueueFullOn r.key.kind) (hl : s.store.lookup r.key = some row) (hr : s.store.row row = some old) :
    s.updateVerdict m = .ok (row, old, r) := by
  have checks := State.admissionChecks_pass (kind := fun r : Record => r.key.kind) hp hf hq
  simp [State.updateVerdict, hm, checks, hl, hr]

/-- What R31 admits. -/
theorem State.retireVerdict_pass {s : State} {m : List Byte} {k : Key} {old : Record} {row : Nat}
    (hp : s.store.phase = .initialized) (hm : requestKey m = some k) (hf : ¬ s.FreezeOn k.kind) (hq : ¬ s.QueueFullOn k.kind)
    (hl : s.store.lookup k = some row) (hr : s.store.row row = some old) : s.retireVerdict m = .ok (k, row, old) := by
  have checks := State.admissionChecks_pass (kind := Key.kind) hp hf hq
  simp [State.retireVerdict, hm, checks, hl, hr]

/-- An INSERT that R29 admits, in closed form. -/
theorem execInsert_admitted {s : State} {m : List Byte} {rest : List (List Byte)} {r : Record} {row : Nat}
    (ho : s.Offers 1 m rest) (hv : s.insertVerdict m = .ok (r, row)) :
    exec .insert s = .next
      ((s.admission (s.store.insert row r) r.key.kind row fun p => some (.write row (r.encode p))).answered m rest .ok
        (.row row)) := by
  have verdict : ({ s with requests := rest } : State).insertVerdict m = .ok (r, row) := hv
  have run : exec .insert s = .next (({ s with requests := rest } : State).decideInsert m) :=
    congrArg Host.Outcome.next (ho.run State.decideInsert)
  rw [run, State.decideInsert, verdict, ← State.applyChange_respond]

/-- An UPDATE to an equal body changes nothing. -/
theorem execUpdate_unchanged {s : State} {m : List Byte} {rest : List (List Byte)} {r old : Record} {row : Nat}
    (ho : s.Offers 2 m rest) (hv : s.updateVerdict m = .ok (row, old, r)) (hb : old.body = r.body) :
    exec .update s = .next (s.answered m rest .okUnchanged (.row row)) := by
  have verdict : ({ s with requests := rest } : State).updateVerdict m = .ok (row, old, r) := hv
  have run : exec .update s = .next (({ s with requests := rest } : State).decideUpdate m) :=
    congrArg Host.Outcome.next (ho.run State.decideUpdate)
  rw [run, State.decideUpdate, verdict]
  simp only [hb, if_true, State.respond_eq_answered]

/-- An UPDATE to another body, in closed form. -/
theorem execUpdate_replaced {s : State} {m : List Byte} {rest : List (List Byte)} {r old : Record} {row : Nat}
    (ho : s.Offers 2 m rest) (hv : s.updateVerdict m = .ok (row, old, r)) (hk : old.key = r.key) (hb : old.body ≠ r.body) :
    exec .update s = .next
      ((s.admission (s.store.update row old r) r.key.kind row fun p => updateEntry p row old r).answered m rest .ok
        (.row row)) := by
  have verdict : ({ s with requests := rest } : State).updateVerdict m = .ok (row, old, r) := hv
  have carried : ({ old with body := r.body } : Record) = r := by rw [hk]
  have run : exec .update s = .next (({ s with requests := rest } : State).decideUpdate m) :=
    congrArg Host.Outcome.next (ho.run State.decideUpdate)
  rw [run, State.decideUpdate, verdict]
  simp only [hb, if_false, carried, ← State.applyChange_respond]

/-- A RETIRE that R31 admits, in closed form. -/
theorem execRetire_admitted {s : State} {m : List Byte} {rest : List (List Byte)} {k : Key} {old : Record} {row : Nat}
    (ho : s.Offers 3 m rest) (hv : s.retireVerdict m = .ok (k, row, old)) :
    exec .retire s = .next
      ((s.admission (s.store.retire k row old) k.kind row fun _ => some (.clear row)).answered m rest .ok (.row row)) := by
  have verdict : ({ s with requests := rest } : State).retireVerdict m = .ok (k, row, old) := hv
  have run : exec .retire s = .next (({ s with requests := rest } : State).decideRetire m) :=
    congrArg Host.Outcome.next (ho.run State.decideRetire)
  rw [run, State.decideRetire, verdict, ← State.applyChange_respond]

/-! ### The store after an admitted change -/

/-- Two stores with exact indices look a key up alike when the same rows hold a record with it (01, R16 and R17). -/
theorem Store.lookup_congr {s t : Store} (hs : s.IndexExact) (ht : t.IndexExact) {k : Key}
    (h : ∀ row, (∃ r, t.row row = some r ∧ r.key = k) ↔ ∃ r, s.row row = some r ∧ r.key = k) : t.lookup k = s.lookup k :=
  Option.ext fun row => by rw [Store.lookup_eq_some_row ht, Store.lookup_eq_some_row hs, h]

/-- Where neither row holds a record with the key, neither is the key's row. -/
theorem exists_key_congr {a b : Option Record} {k : Key} (ha : ∀ r ∈ a, r.key ≠ k) (hb : ∀ r ∈ b, r.key ≠ k) :
    (∃ r, a = some r ∧ r.key = k) ↔ ∃ r, b = some r ∧ r.key = k :=
  ⟨fun ⟨r, e, hk⟩ => absurd hk (ha r e), fun ⟨r, e, hk⟩ => absurd hk (hb r e)⟩

/-- A record's contribution to a digest, where it has one (01, R20). -/
theorem xor_digest (r : Record) (p : Profile) (d : Word32) :
    d ^^^ r.digest p = if p.accepts r.key.kind = true then d ^^^ crc32 (r.encode p) else d := by
  unfold Record.digest
  split <;> simp

/-- An INSERT leaves every other key's lookup. -/
theorem Store.insert_lookup_of_ne {s : Store} {row : Nat} {r : Record} (hs : s.IndexExact)
    (ht : (s.insert row r).IndexExact) (hf : s.row row = none) {k : Key} (hk : k ≠ r.key) :
    (s.insert row r).lookup k = s.lookup k := by
  refine Store.lookup_congr hs ht fun n => ?_
  rw [Store.insert_row]
  split
  · next e => exact exists_key_congr (by simp [Ne.symm hk]) (by simp [e, hf])
  · rfl

/-- A RETIRE leaves every other key's lookup. -/
theorem Store.retire_lookup_of_ne {s : Store} {k : Key} {row : Nat} {old : Record} (hs : s.IndexExact)
    (ht : (s.retire k row old).IndexExact) (ho : s.row row = some old) (hk : old.key = k) {other : Key}
    (hne : other ≠ k) : (s.retire k row old).lookup other = s.lookup other := by
  refine Store.lookup_congr hs ht fun n => ?_
  rw [Store.retire_row]
  split
  · next e => exact exists_key_congr (by simp) (by simp [e, ho, hk, Ne.symm hne])
  · rfl

/-- The key of a RETIRE is found no more. -/
theorem Store.retire_lookup_self {s : Store} {k : Key} {row : Nat} {old : Record} (hs : s.IndexExact)
    (ht : (s.retire k row old).IndexExact) (ho : s.row row = some old) (hk : old.key = k) :
    (s.retire k row old).lookup k = none := by
  refine (Store.lookup_eq_none ht k).2 fun n r hr hrk => ?_
  rw [Store.retire_row] at hr
  split at hr
  · cases hr
  · next hne =>
    have here := (Store.lookup_eq_some_row hs k row).2 ⟨old, ho, hk⟩
    have there := (Store.lookup_eq_some_row hs k n).2 ⟨r, hr, hrk⟩
    rw [here] at there
    cases there
    exact hne rfl

theorem Way.holds_iff (w : Way) (bucket : Nat) (k : Key) :
    w.holds bucket k = true ↔ w.bucket = bucket ∧ w.entry.key = k := by
  simp [Way.holds]

/-- The overflow entry that a RETIRE takes off the list: the key's own where it stands there, else one of the key's bucket
(01, R19). -/
def Store.leavesOverflow (s : Store) (k : Key) (e : IndexEntry) : Bool :=
  if k ∈ s.overflow.map IndexEntry.key then e.key == k else s.bucketOf e.key == s.bucketOf k

theorem Store.leavesOverflow_iff (s : Store) (k : Key) (e : IndexEntry) :
    s.leavesOverflow k e = true ↔
      if k ∈ s.overflow.map IndexEntry.key then e.key = k else s.bucketOf e.key = s.bucketOf k := by
  unfold Store.leavesOverflow
  split <;> simp

/-- An entry in a way of the key's bucket and one in the overflow list are not of one key. -/
theorem Store.IndexExact.not_mem_overflow {s : Store} (h : s.IndexExact) {w : Way} (hw : w ∈ s.ways) :
    w.entry.key ∉ s.overflow.map IndexEntry.key := by
  intro hm
  have nd := h.keys_once
  rw [Store.entries, List.map_append] at nd
  exact (List.disjoint_of_nodup_append nd) (List.mem_map_of_mem (List.mem_map_of_mem hw)) hm

/-- The overflow list after an entry is removed (01, R19). -/
theorem Store.removeEntry_overflow {s : Store} (h : s.IndexExact) {k : Key} {row : Nat} (hk : s.lookup k = some row) :
    (s.removeEntry k).overflow = s.overflow.eraseP (s.leavesOverflow k) := by
  unfold Store.removeEntry
  simp only []
  split
  · next hany =>
    obtain ⟨w, hw, holds⟩ := List.any_eq_true.1 hany
    obtain ⟨_, wk⟩ := (w.holds_iff _ k).1 holds
    have gone : s.leavesOverflow k = fun e => s.bucketOf e.key == s.bucketOf k :=
      funext fun e => if_neg (wk ▸ h.not_mem_overflow hw)
    split
    · rw [gone]
    · next none_there => rw [gone, List.eraseP_of_forall_not (List.find?_eq_none.1 none_there)]
  · next hany =>
    have listed : k ∈ s.overflow.map IndexEntry.key := by
      rcases List.mem_append.1 ((Store.lookup_eq_some_iff h k row).1 hk) with hm | hm
      · obtain ⟨w, hw, e⟩ := List.mem_map.1 hm
        have wk : w.entry.key = k := by rw [e]
        exact absurd (List.any_eq_true.2 ⟨w, hw, (w.holds_iff _ k).2 ⟨wk ▸ h.way_bucket w hw, wk⟩⟩) hany
      · exact List.mem_map_of_mem hm
    have gone : s.leavesOverflow k = fun e => e.key == k := funext fun e => if_pos listed
    rw [gone]

/-! ### The statements -/

/-- Settles O18: the closed form of the command, then row, stack, index, overflow and digests of the written store. -/
theorem insert_admitted : Obligations.Insert_Admitted := by
  intro s m rest r row stack offered phase carried thawed room absent top place rows index digests
  have ht : s.store.topRow = some row := by rw [Store.topRow_eq_head, top]; rfl
  have hc : s.store.canPlace r.key = true := by
    rw [Store.canPlace, Bool.or_eq_true, decide_eq_true_eq, decide_eq_true_eq]
    exact place
  obtain ⟨row_lt, row_free⟩ := rows.top phase ht
  have index' := Store.insert_indexExact index row_free absent hc
  refine ⟨s.store.insert row r,
    execInsert_admitted offered (State.insertVerdict_pass phase carried thawed room absent ht hc), by simpa using phase,
    by simp, ?stack, by simp [Store.insert_row], fun other hne => by simp [Store.insert_row, hne], ?lookup,
    fun k hk => Store.insert_lookup_of_ne index index' row_free hk, s.store.insert_overflow row r, fun p segment => ?digest⟩
  case stack =>
    have popped := Store.freeRows_of_topRow ht
    rw [top] at popped
    rw [Store.insert_freeRows]
    exact (List.cons.inj popped).2.symm
  case lookup => exact (Store.lookup_eq_some_row index' r.key row).2 ⟨r, by simp [Store.insert_row], rfl⟩
  case digest =>
    rw [Store.insert_digest rows digests phase row_lt, xor_digest, ite_and]

/-- Settles O19: the lookup of the key finds the row, and the replaced body leaves stack and index as they are. -/
theorem update_replacesBody : Obligations.Update_ReplacesBody := by
  intro s m rest r old row offered phase carried thawed room live key rows index digests
  have found := (Store.lookup_eq_some_row index r.key row).2 ⟨old, live, key⟩
  have verdict := State.updateVerdict_pass phase carried thawed room found live
  refine ⟨execUpdate_unchanged offered verdict, fun differs => ?_⟩
  refine ⟨s.store.update row old r, execUpdate_replaced offered verdict key differs, phase, rfl, rfl, rfl, fun _ => rfl,
    by simp [Store.update_row], fun other hne => by simp [Store.update_row, hne], fun p segment => ?_⟩
  rw [Store.update_digest rows digests phase (rows.live live).1, xor_digest, xor_digest, key, ite_and]
  by_cases accepted : p.accepts r.key.kind = true <;> simp [accepted]

/-- Settles O20: the lookup of the key finds the row; the store without the key's entry has an exact index again, which gives
every lookup. -/
theorem retire_freesRow : Obligations.Retire_FreesRow := by
  intro s m rest k old row offered phase carried thawed room live key rows index digests
  have found := (Store.lookup_eq_some_row index k row).2 ⟨old, live, key⟩
  have index' := Store.retire_indexExact index live key
  refine ⟨s.store.retire k row old,
    execRetire_admitted offered (State.retireVerdict_pass phase carried thawed room found live), by simpa using phase,
    by simp, by simp, by simp [Store.retire_row], fun other hne => by simp [Store.retire_row, hne],
    Store.retire_lookup_self index index' live key, fun other hne => Store.retire_lookup_of_ne index index' live key hne,
    ⟨s.store.leavesOverflow k, (Store.removeEntry_overflow index found).symm, s.store.leavesOverflow_iff k⟩,
    fun p segment => ?_⟩
  rw [Store.retire_digest rows digests phase k (rows.live live).1, xor_digest, key, ite_and]

/-- Settles O11: under an exact index the lookup of the key is the row of its record. -/
theorem find_answersByKey : Obligations.Find_AnswersByKey := by
  intro s m rest offered
  have run : exec .find s = .next (({ s with requests := rest } : State).decideFind m) :=
    congrArg Host.Outcome.next (offered.run State.decideFind)
  refine ⟨fun phase => ?_, fun phase bad => ?_, fun phase index k named => ⟨fun absent => ?_, fun row r live key => ?_⟩⟩
  · simp only [State.Refuses, run, State.decideFind, ne_eq, phase, not_false_eq_true, if_true]
    rfl
  · simp only [State.Refuses, run, State.decideFind, ne_eq, phase, not_true_eq_false, if_false, bad]
    rfl
  · have lookup := (Store.lookup_eq_none index k).2 absent
    simp only [State.Refuses, run, State.decideFind, ne_eq, phase, not_true_eq_false, if_false, named, lookup]
    rfl
  · have lookup := (Store.lookup_eq_some_row index k row).2 ⟨r, live, key⟩
    simp only [run, State.decideFind, ne_eq, phase, not_true_eq_false, if_false, named, lookup, live]
    rfl

/-- Settles O16: STORE_INIT by the phase of the store, the completion by its reserved entry. -/
theorem storeInit_beginsAndCompletes : Obligations.StoreInit_BeginsAndCompletes := by
  intro s m rest
  have run : s.Offers 6 m rest → exec .storeInit s = .next (({ s with requests := rest } : State).decideStoreInit m) :=
    fun offered => congrArg Host.Outcome.next (offered.run State.decideStoreInit)
  refine ⟨fun offered phase => ?_, fun offered phase => ?_, fun tag awake phase reserved => ?_, fun phase => ?_⟩
  · simp only [State.Refuses, run offered, State.decideStoreInit, phase, if_false]
    rfl
  · refine ⟨s.store.begin (roundSize (fieldAt m 8 4)), ?_, rfl, rfl, by simp, rfl, rfl⟩
    simp only [run offered, State.decideStoreInit, phase, if_true]
    rfl
  · refine ⟨s.store.complete, ?_, rfl, rfl, rfl, s.store.complete_freeRows, rfl, rfl, rfl⟩
    change Host.Outcome.next (s.unlessReset State.completeInit) = _
    simp only [State.unlessReset_run _ _ awake, State.completeInit, phase, reserved]
    rfl
  · change Host.Outcome.next (s.unlessReset State.completeInit) = _
    have idle : s.completeInit = s := by
      unfold State.completeInit
      split
      · next h _ => exact absurd h phase
      · rfl
    simp only [State.unlessReset, idle, ite_self]

end Sys2Proof.Machine
end

section
/-! SUPPORT. The resets (08, sections 8.6 and 8.7; 09, section 9.4) in closed form, and the state they lead to: it
meets every invariant. -/

namespace Sys2Proof.Machine

/-! ### The commands -/

/-- Settles O5: the two assertions set the same values, the end of a reset places its message on the queue they have emptied. -/
theorem reset_holdsAndEnds : Obligations.Reset_HoldsAndEnds := by
  intro s
  refine ⟨rfl, rfl, fun run => ?_, fun held => ?_⟩
  · simp only [exec, execResetEnd, State.endReset, run]
    rfl
  · simp only [exec, execResetEnd, State.endReset, held, if_true]
    rfl

/-- Settles O6: the request is taken outside reset, so neither reset source stands before or after. -/
theorem softReset_keepsStoreAndSettings : Obligations.SoftReset_KeepsStoreAndSettings := by
  intro s m rest offered
  have run : exec .softReset s = .next (({ s with requests := rest } : State).decideSoftReset m) :=
    congrArg Host.Outcome.next (offered.run State.decideSoftReset)
  obtain ⟨awake, _, _, code⟩ := offered
  obtain ⟨no_power_on, no_pin⟩ := State.inReset_false awake
  have kind : kindOf m = 19 := code
  simp only [run, State.decideSoftReset, State.resetDone, State.resetBlocks, kind, no_power_on, no_pin]
  rfl

/-! ### The state after reset -/

@[simp] theorem State.reset_lane (i : Slot) : State.reset.lane i = Lane.reset := by simp [State.reset, State.lane]

@[simp] theorem State.reset_job (j : JobNo) : State.reset.job j = none := by simp [State.reset, State.job]

@[simp] theorem State.reset_grant : State.reset.grant = none := rfl

@[simp] theorem State.reset_master : State.reset.master = IdMaster.reset := rfl

/-- No entry of the reset job table targets a slot. -/
theorem State.reset_targetedBy (i : Slot) (j : JobNo) : ¬ State.reset.TargetedBy i j := by simp [State.TargetedBy]

theorem State.reset_queuesFit : State.reset.QueuesFit where
  requests_fit := by decide
  requests_whole := by simp [State.reset]
  responses_fit := by decide
  reserved_iff := by decide
  reset_empty := by decide

theorem Transmitter.reset_sound : Transmitter.reset.Sound where
  idle_iff := by decide
  timer_iff := by decide
  timer_fit := by simp [Transmitter.reset]
  burst := by simp [Transmitter.reset]

theorem State.reset_linksSound : State.reset.LinksSound where
  lanes i := by rw [State.reset_lane]; exact Transmitter.reset_sound
  grant := by simp

theorem Lane.reset_liveFits : Lane.reset.LiveFits where
  depth := by decide
  watermark := by decide
  debt := by decide
  mismatches := by decide
  repairs_once := by decide
  offset := by decide
  offset_empty := by decide
  stopped := by decide

theorem State.reset_jobsFit : State.reset.JobsFit := fun j job h => by simp at h

/-- After reset every lane is EMPTY, with its inputs unseated, no board facts and an IDLE transmitter, and there is no job. -/
theorem State.reset_blocksAgree : State.reset.BlocksAgree where
  fifo_iff i := by simp [IdMaster.reset, Lane.reset]
  fifo_once := by simp [IdMaster.reset]
  master_idle := by simp [IdMaster.reset]
  attempts := by simp [IdMaster.reset]
  loading_iff i := by simp [State.reset_targetedBy, Lane.reset]
  one_job i j k h := absurd h (State.reset_targetedBy i j)
  granted := by simp
  client i b h := by simp [Lane.reset, Transmitter.reset] at h
  seating i := by simp [Lane.SeatingFits, Lane.reset]
  facts i := by simp [Lane.FactsFit, Lane.reset]
  initialized _ := by simp [Lane.reset]

theorem State.reset_portInUse : State.reset.PortInUse := fun _ j => by simp [State.eligible]

theorem State.reset_namesInStore : State.reset.NamesInStore where
  entries i := by simp [Lane.reset, Live.reset]
  repairs i := by simp [Lane.reset, Live.reset]
  next_audit i := by simp [Lane.reset]
  bursts i := by simp [Lane.reset, Transmitter.reset]
  grant := by simp
  dirty := by simp
  cursors := by simp
  progress := by simp
  verify := by simp

theorem State.reset_settingsFit : State.reset.SettingsFit where
  debounce := by decide
  threshold := by decide
  interval := by decide
  present_counts := by decide
  lever_counts := by decide
  scan_due := by decide

/-- Settles O50: an empty store, EMPTY lanes and no job leave every invariant nothing to break. -/
theorem reset_meetsInvariants : Obligations.Reset_MeetsInvariants := by
  obtain ⟨rows, index, digests⟩ := Store.reset_exact
  exact ⟨rows, index, digests, State.reset_queuesFit, State.reset_linksSound,
    fun i => by rw [State.reset_lane]; exact Lane.reset_liveFits, State.reset_jobsFit, State.reset_blocksAgree,
    State.reset_portInUse, State.reset_namesInStore, State.reset_settingsFit⟩

end Sys2Proof.Machine
end

section
/-! SUPPORT. The hold of a freeze on the master (07, R160 and R161): an admitted change of a kind that a profile does not
accept moves nothing in that profile, and a change of an accepted kind is not admitted. -/

namespace Sys2Proof.Machine

/-! ### Stores that agree in a profile -/

/-- Two stores hold the same rows of a profile and the same digests of it. -/
def Store.AgreesIn (p : Profile) (s t : Store) : Prop :=
  (∀ row r, p.accepts r.key.kind = true → (t.row row = some r ↔ s.row row = some r)) ∧
    ∀ segment, t.digest p segment = s.digest p segment

theorem Store.AgreesIn.refl (p : Profile) (s : Store) : Store.AgreesIn p s s := ⟨fun _ _ _ => Iff.rfl, fun _ => rfl⟩

/-- Neither content of a row is the given record, where both are of kinds that the profile of the record does not accept. -/
theorem eq_some_congr_of_refused {a b : Option Record} {p : Profile} (ha : ∀ q ∈ a, p.accepts q.key.kind = false)
    (hb : ∀ q ∈ b, p.accepts q.key.kind = false) {r : Record} (hr : p.accepts r.key.kind = true) :
    a = some r ↔ b = some r :=
  ⟨fun e => absurd hr (by simp [ha r e]), fun e => absurd hr (by simp [hb r e])⟩

/-- Stores that differ in one row, whose contents before and after are outside the profile, hold the same rows of it. -/
theorem Store.row_iff_of_refused {s t : Store} {p : Profile} {changed : Nat}
    (before : ∀ q ∈ s.row changed, p.accepts q.key.kind = false)
    (after : ∀ q ∈ t.row changed, p.accepts q.key.kind = false)
    (others : ∀ row, row ≠ changed → t.row row = s.row row) (row : Nat) (r : Record) (hr : p.accepts r.key.kind = true) :
    t.row row = some r ↔ s.row row = some r := by
  by_cases h : row = changed
  · rw [h]; exact eq_some_congr_of_refused after before hr
  · rw [others row h]

/-- A record of a kind that the profile does not accept contributes nothing to its digests (01, R20). -/
theorem Record.digest_of_refused {r : Record} {p : Profile} (h : p.accepts r.key.kind = false) : r.digest p = 0 := by
  simp [Record.digest, h]

/-! ### Changes outside the profile -/

/-- An INSERT of a record outside the profile moves nothing in it. -/
theorem Store.insert_agreesIn {s : Store} (hr : s.RowsExact) (hd : s.DigestsExact) (hi : s.phase = .initialized) {row : Nat}
    (ht : s.topRow = some row) {r : Record} {p : Profile} (hp : p.accepts r.key.kind = false) :
    Store.AgreesIn p s (s.insert row r) := by
  obtain ⟨row_lt, row_free⟩ := hr.top hi ht
  refine ⟨Store.row_iff_of_refused (changed := row) (by simp [row_free]) (by simp [Store.insert_row, hp])
    (fun other h => by simp [Store.insert_row, h]), fun segment => ?_⟩
  simp [Store.insert_digest hr hd hi row_lt, Record.digest_of_refused hp]

/-- An UPDATE of a record outside the profile moves nothing in it. -/
theorem Store.update_agreesIn {s : Store} (hr : s.RowsExact) (hd : s.DigestsExact) (hi : s.phase = .initialized) {row : Nat}
    {old new : Record} (live : s.row row = some old) {p : Profile} (ho : p.accepts old.key.kind = false)
    (hn : p.accepts new.key.kind = false) : Store.AgreesIn p s (s.update row old new) := by
  refine ⟨Store.row_iff_of_refused (changed := row) (by simp [live, ho]) (by simp [Store.update_row, hn])
    (fun other h => by simp [Store.update_row, h]), fun segment => ?_⟩
  simp [Store.update_digest hr hd hi (hr.live live).1, Record.digest_of_refused ho, Record.digest_of_refused hn]

/-- A RETIRE of a record outside the profile moves nothing in it. -/
theorem Store.retire_agreesIn {s : Store} (hr : s.RowsExact) (hd : s.DigestsExact) (hi : s.phase = .initialized) (k : Key)
    {row : Nat} {old : Record} (live : s.row row = some old) {p : Profile} (ho : p.accepts old.key.kind = false) :
    Store.AgreesIn p s (s.retire k row old) := by
  refine ⟨Store.row_iff_of_refused (changed := row) (by simp [live, ho]) (by simp [Store.retire_row])
    (fun other h => by simp [Store.retire_row, h]), fun segment => ?_⟩
  simp [Store.retire_digest hr hd hi k (hr.live live).1, Record.digest_of_refused ho]

/-! ### The commands -/

/-- The record in the row that a key's lookup finds has that key (01, R16). -/
theorem Store.IndexExact.key_of_lookup {s : Store} (h : s.IndexExact) {k : Key} {row : Nat} {r : Record}
    (found : s.lookup k = some row) (live : s.row row = some r) : r.key = k := by
  obtain ⟨q, hq, key⟩ := (Store.lookup_eq_some_row h k row).1 found
  obtain rfl : r = q := Option.some.inj (live.symm.trans hq)
  exact key

/-- A job in FREEZE or VERIFY freezes every kind that its profile accepts (02, R27). -/
theorem State.FreezeOn.of_frozen {s : State} {j : JobNo} {job : Job} {k : Kind} (hj : s.job j = some job)
    (hf : job.state.frozen = true) (ha : job.profile.accepts k = true) : s.FreezeOn k := by
  refine ⟨j, job, hj, ?_, ha⟩
  cases e : job.state <;> simp [e, JobState.frozen] at hf ⊢

@[simp] theorem State.resetBlocks_job (s : State) (store : Store) (j : JobNo) : (s.resetBlocks store).job j = none := by
  simp [State.resetBlocks, State.job]

@[simp] theorem State.decideSoftReset_job (s : State) (m : List Byte) (j : JobNo) : (s.decideSoftReset m).job j = none :=
  s.resetBlocks_job s.store.softReset j

/-- A reset, where it happens, leaves no job. -/
theorem exec_reset_store_or_jobless {c : Instr} {s t : State}
    (hc : c = .softReset ∨ c = .powerOn ∨ c = .resetPinAssert ∨ c = .resetEnd) (h : exec c s = .next t) :
    t.store = s.store ∨ ∀ j, t.job j = none := by
  rcases hc with rfl | rfl | rfl | rfl <;> (injection h with h; subst h)
  · rcases State.takeRequest_cases s (· == 19#8) State.decideSoftReset with e | ⟨m, rest, _, _, e⟩
    · exact .inl (congrArg State.store e)
    · exact .inr fun j => by rw [e]; exact State.decideSoftReset_job _ m j
  · exact .inr fun j => s.resetBlocks_job Store.reset j
  · exact .inr fun j => s.resetBlocks_job Store.reset j
  · unfold State.endReset
    split
    · exact .inr fun j => s.resetBlocks_job Store.reset j
    · exact .inl rfl

/-- Settles O48: the job's own freeze keeps every admitted change out of its profile, the store is already initialized, and a
reset would leave no job. -/
theorem freeze_holdsMaster : Obligations.Freeze_HoldsMaster := by
  intro c s t j job after rows index digests phase run held frozen kept _
  have refused : ∀ k, ¬ s.FreezeOn k → job.profile.accepts k = false := fun k thawed =>
    Bool.eq_false_iff.2 fun accepted => thawed (.of_frozen held frozen accepted)
  suffices agrees : Store.AgreesIn job.profile s.store t.store from agrees
  have move := exec_storeMoves c run
  generalize written : t.store = store at move
  cases move with
  | same => exact .refl ..
  | reset hc =>
    rcases exec_reset_store_or_jobless hc run with e | jobless
    · rw [← written, e]; exact .refl ..
    · simp [jobless j] at kept
  | begins _ h => simp [phase] at h
  | completes h => simp [phase] at h
  | inserts m r row hv =>
    obtain ⟨_, _, thawed, _, _, top, _⟩ := State.insertVerdict_ok hv
    exact Store.insert_agreesIn rows digests phase top (refused _ thawed)
  | updates m row old r hv =>
    obtain ⟨_, _, thawed, _, found, live⟩ := State.updateVerdict_ok hv
    have key := index.key_of_lookup found live
    have out := refused _ thawed
    rw [← key] at out
    exact Store.update_agreesIn rows digests phase live out out
  | retires m k row old hv =>
    obtain ⟨_, _, thawed, _, found, live⟩ := State.retireVerdict_ok hv
    have key := index.key_of_lookup found live
    exact Store.retire_agreesIn rows digests phase k live (key ▸ refused _ thawed)

end Sys2Proof.Machine
end

section
/-! SUPPORT. The reads of the store and of the part's identity (02, R42 and R43; 09, R194), and the count of its rows. -/

namespace Sys2Proof.Machine

/-! ### Live and free rows -/

/-- The live rows and the stack are together the rows of the store, each once (01, R10 and R15). -/
theorem Store.RowsExact.rows_perm {s : Store} (h : s.RowsExact) (hi : s.phase = .initialized) :
    (s.rows.map Prod.fst ++ s.freeRows).Perm (List.range s.size) := by
  have live_once : (s.rows.map Prod.fst).Nodup :=
    List.pairwise_map.2 (h.rising.imp Nat.ne_of_lt)
  have live_iff : ∀ row, row ∈ s.rows.map Prod.fst ↔ s.row row ≠ none := fun row => by
    rw [Ne, Store.row, Memory.read_eq_none_iff, List.mem_map]
    simp
  refine (List.perm_ext_iff_of_nodup ?_ List.nodup_range).2 fun row => ?_
  · refine live_once.append (h.stack_once hi) fun row live free => ?_
    exact (live_iff row).1 live ((h.stack_free hi row).1 free).2
  · rw [List.mem_append, live_iff, h.stack_free hi, List.mem_range]
    rcases held : s.row row with _ | r
    · simp
    · simp [(h.live held).1]

/-- Every row of the store is live or free (02, R43). -/
theorem Store.RowsExact.live_add_free {s : Store} (h : s.RowsExact) (hi : s.phase = .initialized) :
    s.rows.length + s.freeRows.length = s.size := by
  simpa using (h.rows_perm hi).length_eq

/-! ### The commands -/

/-- READ_ROW on an offered request is its decision. -/
theorem execReadRow_offered {s : State} {m : List Byte} {rest : List (List Byte)} (h : s.Offers 5 m rest) :
    exec .readRow s = .next (({ s with requests := rest } : State).decideReadRow m) :=
  congrArg Host.Outcome.next (h.run State.decideReadRow)

/-- STORE_STATS on an offered request is its decision. -/
theorem execStoreStats_offered {s : State} {m : List Byte} {rest : List (List Byte)} (h : s.Offers 7 m rest) :
    exec .storeStats s = .next (({ s with requests := rest } : State).decideStoreStats m) :=
  congrArg Host.Outcome.next (h.run State.decideStoreStats)

/-- A request of unknown kind is refused (08, R179). -/
theorem execUnknownRequestKind_refuses {s : State} {m : List Byte} {rest : List (List Byte)}
    (h : s.Offers (byteAt m 2) m rest) (hk : byteAt m 2 = 0 ∨ 20 ≤ natAt m 2) :
    s.Refuses .unknownRequestKind m rest .badRequest := by
  have unknown : unknownKind (byteAt m 2) = true := by simpa [unknownKind, natAt] using hk
  exact congrArg Host.Outcome.next (State.takeRequest_offers (f := State.decideUnknown) h unknown)

/-- Settles O12: each read by the branches of its decision; the counts of STORE_STATS add up since every row is live or free. -/
theorem plainReads_answer : Obligations.PlainReads_Answer := by
  refine ⟨fun s m rest => ⟨fun offered => ?readRow, fun offered => ?storeStats⟩,
    fun s m rest => ⟨fun offered => ?identify, fun offered => execUnknownRequestKind_refuses offered⟩⟩
  case readRow =>
    refine ⟨fun phase => ?_, fun phase beyond => ?_, fun phase inside => ?_⟩
    · simp only [State.Refuses, execReadRow_offered offered, State.decideReadRow, ne_eq, phase, not_false_eq_true, if_true]
      rfl
    · simp only [State.Refuses, execReadRow_offered offered, State.decideReadRow, ne_eq, phase, not_true_eq_false, if_false,
        beyond, if_true]
      rfl
    · simp only [execReadRow_offered offered, State.decideReadRow, ne_eq, phase, not_true_eq_false, if_false,
        Nat.not_le.2 inside]
      rfl
  case storeStats =>
    refine ⟨fun phase => ?_, fun phase rows => ⟨?_, rows.live_add_free phase⟩⟩
    · simp only [State.Refuses, execStoreStats_offered offered, State.decideStoreStats, ne_eq, phase, not_false_eq_true,
        if_true]
      rfl
    · have live : s.store.size - s.store.freeRows.length = s.store.rows.length := by
        have := rows.live_add_free phase
        omega
      simp only [execStoreStats_offered offered, State.decideStoreStats, ne_eq, phase, not_true_eq_false, if_false,
        Store.freeCount_eq_length, live]
      rfl
  case identify => exact ⟨congrArg Host.Outcome.next (offered.run State.decideIdentify), rfl⟩

end Sys2Proof.Machine
end

section
/-! SUPPORT. The refusals of the table changes (02, R25 to R31): what checks 1 to 4 refuse, and that each command answers
what its decision refuses and changes nothing else. -/

namespace Sys2Proof.Machine

/-! ### Checks 1 to 4 -/

/-- The checks look at the kind of what is carried alone. -/
theorem State.admissionChecks_map {α : Type} (s : State) (carried : Option α) (kind : α → Kind) :
    s.admissionChecks (carried.map kind) id = (s.admissionChecks carried kind).map kind := by
  unfold State.admissionChecks
  cases carried with
  | none => split <;> rfl
  | some x =>
    simp only [Option.map_some, id_eq]
    (repeat' split) <;> rfl

/-- What is refused by its kind is refused. -/
theorem State.admissionChecks_error_of_kind {α : Type} {s : State} {carried : Option α} {kind : α → Kind} {status : Status}
    (h : s.admissionChecks (carried.map kind) id = .error status) : s.admissionChecks carried kind = .error status := by
  rw [State.admissionChecks_map] at h
  cases e : s.admissionChecks carried kind with
  | error other => rw [e] at h; injection h with h; rw [h]
  | ok x => rw [e] at h; cases h

/-- Check 1 (02, R25). -/
theorem State.admissionChecks_notReady {s : State} (kind : Option Kind) (hp : s.store.phase ≠ .initialized) :
    s.admissionChecks kind id = .error .notReady := if_pos hp

/-- Check 2 (02, R26). -/
theorem State.admissionChecks_badRecord {s : State} (hp : s.store.phase = .initialized) :
    s.admissionChecks (none : Option Kind) id = .error .badRecord := if_neg (not_not.2 hp)

/-- Check 3 (02, R27). -/
theorem State.admissionChecks_frozen {s : State} {k : Kind} (hp : s.store.phase = .initialized) (hf : s.FreezeOn k) :
    s.admissionChecks (some k) id = .error .frozen := by
  simp [State.admissionChecks, hp, (s.frozenKind_iff k).2 hf]

/-- Check 4 (02, R28). -/
theorem State.admissionChecks_backlog {s : State} {k : Kind} (hp : s.store.phase = .initialized) (hf : ¬ s.FreezeOn k)
    (hq : s.QueueFullOn k) : s.admissionChecks (some k) id = .error .backlog := by
  simp [State.admissionChecks, hp, mt (s.frozenKind_iff k).1 hf, (s.backlogged_iff k).2 hq]

/-! ### The commands refuse what their decisions refuse -/

/-- What the decision on an INSERT refuses is answered with its status (02, R24). -/
theorem execInsert_refuses {s : State} {m : List Byte} {rest : List (List Byte)} {status : Status} (ho : s.Offers 1 m rest)
    (hv : s.insertVerdict m = .error status) : s.Refuses .insert m rest status := by
  have verdict : ({ s with requests := rest } : State).insertVerdict m = .error status := hv
  have run : exec .insert s = .next (({ s with requests := rest } : State).decideInsert m) :=
    congrArg Host.Outcome.next (ho.run State.decideInsert)
  rw [State.Refuses, run, State.decideInsert, verdict]
  rfl

/-- What the decision on an UPDATE refuses is answered with its status (02, R24). -/
theorem execUpdate_refuses {s : State} {m : List Byte} {rest : List (List Byte)} {status : Status} (ho : s.Offers 2 m rest)
    (hv : s.updateVerdict m = .error status) : s.Refuses .update m rest status := by
  have verdict : ({ s with requests := rest } : State).updateVerdict m = .error status := hv
  have run : exec .update s = .next (({ s with requests := rest } : State).decideUpdate m) :=
    congrArg Host.Outcome.next (ho.run State.decideUpdate)
  rw [State.Refuses, run, State.decideUpdate, verdict]
  rfl

/-- What the decision on a RETIRE refuses is answered with its status (02, R24). -/
theorem execRetire_refuses {s : State} {m : List Byte} {rest : List (List Byte)} {status : Status} (ho : s.Offers 3 m rest)
    (hv : s.retireVerdict m = .error status) : s.Refuses .retire m rest status := by
  have verdict : ({ s with requests := rest } : State).retireVerdict m = .error status := hv
  have run : exec .retire s = .next (({ s with requests := rest } : State).decideRetire m) :=
    congrArg Host.Outcome.next (ho.run State.decideRetire)
  rw [State.Refuses, run, State.decideRetire, verdict]
  rfl

/-- The request of the table change `c` stands at the head of the queue, and `kind` is the kind of the key it carries, none
where what it carries is not valid. -/
def State.OffersChange (s : State) (c : Instr) (m : List Byte) (rest : List (List Byte)) (kind : Option Kind) : Prop :=
  (s.Offers 1 m rest ∧ c = .insert ∧ kind = (requestRecord m).map (·.key.kind)) ∨
    (s.Offers 2 m rest ∧ c = .update ∧ kind = (requestRecord m).map (·.key.kind)) ∨
    (s.Offers 3 m rest ∧ c = .retire ∧ kind = (requestKey m).map Key.kind)

/-- A table change that checks 1 to 4 refuse is answered with their status. -/
theorem State.OffersChange.refuses_of_checks {s : State} {c : Instr} {m : List Byte} {rest : List (List Byte)}
    {kind : Option Kind} {status : Status} (h : s.OffersChange c m rest kind)
    (hc : s.admissionChecks kind id = .error status) : s.Refuses c m rest status := by
  rcases h with ⟨ho, rfl, rfl⟩ | ⟨ho, rfl, rfl⟩ | ⟨ho, rfl, rfl⟩
  · exact execInsert_refuses ho (by rw [State.insertVerdict, State.admissionChecks_error_of_kind hc])
  · exact execUpdate_refuses ho (by rw [State.updateVerdict, State.admissionChecks_error_of_kind hc])
  · exact execRetire_refuses ho (by rw [State.retireVerdict, State.admissionChecks_error_of_kind hc])

/-! ### The checks of each command -/

/-- The record carried by a request with a key, where a kind is read off it. -/
theorem requestRecord_of_key {m : List Byte} {k : Kind} {key : Key} (hk : some k = (requestRecord m).map (·.key.kind))
    (hkey : requestKey m = some key) : ∃ r, requestRecord m = some r ∧ r.key = key ∧ r.key.kind = k := by
  obtain ⟨r, hr, rfl⟩ := Option.map_eq_some_iff.1 hk.symm
  exact ⟨r, hr, Option.some.inj ((requestRecord_eq_some hr).1.symm.trans hkey), rfl⟩

/-- No place for a key: its bucket and the overflow list are full (01, R18). -/
theorem Store.canPlace_eq_false {s : Store} {k : Key} (bucket_full : 8 ≤ s.bucketLoad (s.bucketOf k))
    (list_full : 256 ≤ s.overflow.length) : s.canPlace k = false := by
  rw [Store.canPlace, Bool.or_eq_false_iff, decide_eq_false_iff_not, decide_eq_false_iff_not, Nat.not_lt, Nat.not_lt]
  exact ⟨bucket_full, list_full⟩

/-- Settles O17: checks 1 to 4 by the kind alone, then each command's own checks on its key. -/
theorem tableChange_refusedInOrder : Obligations.TableChange_RefusedInOrder := by
  intro s m rest c kind offered
  have change : s.OffersChange c m rest kind := offered
  refine ⟨fun phase => change.refuses_of_checks (State.admissionChecks_notReady kind phase), fun phase invalid => ?_,
    fun k phase carried => ⟨fun frozen => ?_, fun thawed full => ?_, fun thawed room key named => ?_⟩⟩
  · subst invalid
    exact change.refuses_of_checks (State.admissionChecks_badRecord phase)
  · subst carried
    exact change.refuses_of_checks (State.admissionChecks_frozen phase frozen)
  · subst carried
    exact change.refuses_of_checks (State.admissionChecks_backlog phase thawed full)
  · subst carried
    rcases offered with ⟨ho, rfl, hk⟩ | ⟨ho, rfl, hk⟩ | ⟨ho, rfl, hk⟩
    case inl =>
      obtain ⟨r, hm, rfl, rfl⟩ := requestRecord_of_key hk named
      have checks := State.admissionChecks_pass (kind := fun r : Record => r.key.kind) phase thawed room
      refine ⟨fun _ present => execInsert_refuses ho ?_, fun _ absent stack => execInsert_refuses ho ?_,
        fun _ absent stack bucket list => execInsert_refuses ho ?_, fun other => absurd rfl other⟩
      · simp only [State.insertVerdict, hm, checks, Option.isSome_iff_ne_none.2 present, if_true]
      · simp [State.insertVerdict, hm, checks, absent, Store.topRow_eq_head, stack]
      · obtain ⟨row, below, top⟩ := List.exists_cons_of_ne_nil stack
        simp [State.insertVerdict, hm, checks, absent, Store.topRow_eq_head, top, Store.canPlace_eq_false bucket list]
    case inr.inl =>
      obtain ⟨r, hm, rfl, rfl⟩ := requestRecord_of_key hk named
      have checks := State.admissionChecks_pass (kind := fun r : Record => r.key.kind) phase thawed room
      refine ⟨nofun, nofun, nofun, fun _ absent => execUpdate_refuses ho ?_⟩
      simp only [State.updateVerdict, hm, checks, absent]
    case inr.inr =>
      rw [named] at hk
      obtain rfl : k = key.kind := Option.some.inj hk
      have checks := State.admissionChecks_pass (kind := Key.kind) phase thawed room
      refine ⟨nofun, nofun, nofun, fun _ absent => execRetire_refuses ho ?_⟩
      simp only [State.retireVerdict, named, checks, absent]

end Sys2Proof.Machine
end

section
/-! SUPPORT. The apply entry of an UPDATE (02, R35 and R36): the groups of a PATCH and their count. -/

namespace Sys2Proof.Machine

/-- Which groups of the profile differ between two bodies as its boards hold them: action, next-hop list and counter index, and
the class override where the profile holds one (02, R35). -/
def groupChanges (p : Profile) (a b : Body) : List Bool :=
  [decide (a.action ≠ b.action), decide (a.hops ≠ b.hops), decide (a.counter ≠ b.counter)]
    ++ (if p = .full then [decide (a.cls ≠ b.cls)] else [])

theorem groupChanges_length (p : Profile) (a b : Body) : (groupChanges p a b).length = p.groups := by
  cases p <;> rfl

/-- A compact board holds no class override (02, R40). -/
@[simp] theorem Body.inProfile_compact_cls (b : Body) : (b.inProfile .compact).cls = none := rfl

/-- A PATCH carries the class override of a full board alone (02, R36). -/
theorem changedGroups_cls (p : Profile) (old new : Body) :
    (changedGroups p old new).cls =
      if p = .full ∧ (old.inProfile p).cls ≠ (new.inProfile p).cls then some (new.inProfile p).cls else none := by
  cases p
  · simp [changedGroups]
  · by_cases same : (old.inProfile .full).cls = (new.inProfile .full).cls <;> simp [changedGroups, same]

/-- The changed groups are carried, the others not. -/
theorem isSome_ite_none_some {α : Type} (c : Prop) [Decidable c] (x : α) :
    (if c then none else some x).isSome = decide ¬c := by
  by_cases h : c <;> simp [h]

/-- A PATCH carries as many groups as differ. -/
theorem changedGroups_count (p : Profile) (old new : Body) :
    (changedGroups p old new).count = (groupChanges p (old.inProfile p) (new.inProfile p)).count true := by
  have total : ∀ w x y z : Bool, w.toNat + x.toNat + y.toNat + z.toNat = [w, x, y, z].count true := by decide
  have total_compact : ∀ w x y : Bool, w.toNat + x.toNat + y.toNat + false.toNat = [w, x, y].count true := by decide
  cases p
  · simp only [Patch.count, changedGroups, isSome_ite_none_some, Body.inProfile_compact_cls, not_true_eq_false, decide_false]
    exact total_compact _ _ _
  · simp only [Patch.count, changedGroups, isSome_ite_none_some]
    exact total _ _ _ _

/-- Settles O21: the count of the PATCH is the count of the groups that differ, and the profile's groups are those compared. -/
theorem updateEntry_byChangedGroups : Obligations.UpdateEntry_ByChangedGroups := by
  intro p row old new a b changed c
  have count : (changedGroups p old.body new.body).count = c := changedGroups_count p old.body new.body
  have groups : changed.length = p.groups := groupChanges_length p a b
  refine ⟨fun same => ?_, fun some_change few => ?_, fun many => ?_⟩
  · rw [updateEntry, count, if_pos same]
  · refine ⟨changedGroups p old.body new.body, ?_, rfl, rfl, rfl, changedGroups_cls p old.body new.body⟩
    rw [updateEntry, count, if_neg (Nat.ne_of_gt some_change), if_pos (groups ▸ few)]
  · have some_change : c ≠ 0 := fun none_changed => by simp [none_changed] at many
    rw [updateEntry, count, if_neg some_change, if_neg (Nat.not_le.2 (groups ▸ many))]

end Sys2Proof.Machine
end

section
/-! SUPPORT. Narrowing (02, R38 to R40): the rank of an entry in the order of trimming, what trimming keeps, and the compact
encoding laid out from the narrowed body. -/

namespace Sys2Proof.Machine

/-! ### The order of trimming -/

/-- Position `i` comes before position `k`: the higher weight first, and among equal weights the earlier (02, R38). -/
abbrev TrimBefore (w : Nat → Nat) (i k : Nat) : Prop := w k < w i ∨ (w i = w k ∧ i < k)

theorem TrimBefore.trans {w : Nat → Nat} {i j k : Nat} (hij : TrimBefore w i j) (hjk : TrimBefore w j k) :
    TrimBefore w i k := by
  unfold TrimBefore at *
  omega

theorem TrimBefore.irrefl (w : Nat → Nat) (i : Nat) : ¬ TrimBefore w i i := by
  unfold TrimBefore
  omega

theorem TrimBefore.total (w : Nat → Nat) {i k : Nat} (h : i ≠ k) : TrimBefore w i k ∨ TrimBefore w k i := by
  unfold TrimBefore
  omega

/-- How many of the first `n` positions come before position `i`. -/
def trimRank (w : Nat → Nat) (n i : Nat) : Nat := ((Finset.range n).filter fun k => TrimBefore w k i).card

/-- A position that comes before another has the lower rank. -/
theorem trimRank_lt_of_before {w : Nat → Nat} {n i k : Nat} (hi : i < n) (h : TrimBefore w i k) :
    trimRank w n i < trimRank w n k := by
  refine Finset.card_lt_card ⟨fun j hj => ?_, fun sub => ?_⟩
  · obtain ⟨hn, hji⟩ := Finset.mem_filter.1 hj
    exact Finset.mem_filter.2 ⟨hn, hji.trans h⟩
  · have self := (Finset.mem_filter.1 (sub (Finset.mem_filter.2 ⟨Finset.mem_range.2 hi, h⟩))).2
    exact TrimBefore.irrefl w i self

/-- Every rank is one of the positions' numbers. -/
theorem trimRank_lt {w : Nat → Nat} {n i : Nat} (hi : i < n) : trimRank w n i < n := by
  have proper : ((Finset.range n).filter fun k => TrimBefore w k i) ⊂ Finset.range n :=
    Finset.filter_ssubset.2 ⟨i, Finset.mem_range.2 hi, TrimBefore.irrefl w i⟩
  exact (Finset.card_lt_card proper).trans_eq (Finset.card_range n)

/-- No two positions have one rank. -/
theorem trimRank_injOn (w : Nat → Nat) (n : Nat) : Set.InjOn (trimRank w n) (Finset.range n) := by
  intro i hi k hk same
  by_contra differ
  rcases TrimBefore.total w differ with h | h
  · exact Nat.ne_of_lt (trimRank_lt_of_before (Finset.mem_range.1 hi) h) same
  · exact Nat.ne_of_gt (trimRank_lt_of_before (Finset.mem_range.1 hk) h) same

/-- The ranks of the positions are 0, 1, … in some order. -/
theorem trimRank_image (w : Nat → Nat) (n : Nat) : (Finset.range n).image (trimRank w n) = Finset.range n := by
  refine Finset.eq_of_subset_of_card_le (fun r hr => ?_) ?_
  · obtain ⟨i, hi, rfl⟩ := Finset.mem_image.1 hr
    exact Finset.mem_range.2 (trimRank_lt (Finset.mem_range.1 hi))
  · rw [Finset.card_image_of_injOn (trimRank_injOn w n)]

/-- As many positions have a rank below `m` as there are such ranks. -/
theorem card_trimRank_lt (w : Nat → Nat) (n m : Nat) :
    ((Finset.range n).filter fun i => trimRank w n i < m).card = min m n := by
  have inj : Set.InjOn (trimRank w n) ((Finset.range n).filter fun i => trimRank w n i < m) :=
    (trimRank_injOn w n).mono (Finset.coe_subset.2 (Finset.filter_subset _ _))
  have ranks : (Finset.range n).filter (· < m) = Finset.range (min m n) := by
    ext r
    simp [and_comm]
  have image := Finset.filter_image (s := Finset.range n) (f := trimRank w n) (p := (· < m))
  rw [trimRank_image, ranks] at image
  rw [← Finset.card_image_of_injOn inj, ← image, Finset.card_range]

/-! ### The positions kept -/

/-- The weight at a position of a next-hop list. -/
def weightAt (hops : List NextHop) (i : Nat) : Nat := (hops[i]?.map NextHop.weight).getD 0

theorem weightAt_of_getElem? {hops : List NextHop} {i : Nat} {h : NextHop} (hi : hops[i]? = some h) :
    weightAt hops i = h.weight := by simp [weightAt, hi]

/-- What stands at a numbered place of a list. -/
theorem getElem?_of_mem_zipIdx {α : Type} {l : List α} {x : α × Nat} (h : x ∈ l.zipIdx) : l[x.2]? = some x.1 :=
  List.mk_mem_zipIdx_iff_getElem?.1 h

/-- The numbers of the places of a list, in order. -/
theorem map_snd_zipIdx {α : Type} (l : List α) : l.zipIdx.map Prod.snd = List.range l.length := by
  rw [List.zipIdx_map_snd, List.range_eq_range']

/-- An entry is kept exactly when its rank is below four (02, R38). -/
theorem keptByTrim_iff {hops : List NextHop} {x : NextHop × Nat} (hx : x ∈ hops.zipIdx) :
    keptByTrim hops x.2 x.1 = decide (trimRank (weightAt hops) hops.length x.2 < 4) := by
  have at_x := weightAt_of_getElem? (getElem?_of_mem_zipIdx hx)
  have same : ∀ y ∈ hops.zipIdx, (decide (x.1.weight < y.1.weight ∨ (y.1.weight = x.1.weight ∧ y.2 < x.2)) = true ↔
      decide (TrimBefore (weightAt hops) y.2 x.2) = true) := fun y hy => by
    rw [decide_eq_true_eq, decide_eq_true_eq, TrimBefore, at_x, weightAt_of_getElem? (getElem?_of_mem_zipIdx hy)]
  have rank : (hops.zipIdx.countP fun y => decide (TrimBefore (weightAt hops) y.2 x.2)) =
      trimRank (weightAt hops) hops.length x.2 := by
    rw [trimRank, ← Nat.count_eq_card_filter_range, Nat.count, ← map_snd_zipIdx, List.countP_map]
    rfl
  rw [← rank, ← List.countP_congr same]
  rfl

/-- The positions of a next-hop list that trimming keeps (02, R38). -/
def keptPositions (hops : List NextHop) : List Nat :=
  (List.range hops.length).filter fun i => decide (trimRank (weightAt hops) hops.length i < 4)

theorem mem_keptPositions (hops : List NextHop) (i : Nat) :
    i ∈ keptPositions hops ↔ i < hops.length ∧ trimRank (weightAt hops) hops.length i < 4 := by
  simp [keptPositions]

theorem keptPositions_sorted (hops : List NextHop) : (keptPositions hops).Pairwise (· < ·) :=
  List.pairwise_lt_range.filter _

theorem keptPositions_length (hops : List NextHop) : (keptPositions hops).length = min 4 hops.length := by
  rw [← card_trimRank_lt (weightAt hops) hops.length 4, ← Nat.count_eq_card_filter_range, Nat.count,
    List.countP_eq_length_filter]
  rfl

/-- Every position kept comes before every position dropped. -/
theorem keptPositions_before {hops : List NextHop} {i j : Nat} (hi : i ∈ keptPositions hops) (hj : j < hops.length)
    (dropped : j ∉ keptPositions hops) : TrimBefore (weightAt hops) i j := by
  have ne : i ≠ j := fun e => dropped (e ▸ hi)
  refine (TrimBefore.total _ ne).resolve_right fun before => dropped ?_
  have rank_i := ((mem_keptPositions hops i).1 hi).2
  exact (mem_keptPositions hops j).2 ⟨hj, (trimRank_lt_of_before hj before).trans rank_i⟩

/-- The trimmed list holds the entries at the positions kept, in list order. -/
theorem trimHops_map_some (hops : List NextHop) : (trimHops hops).map some = (keptPositions hops).map (hops[·]?) := by
  have kept : hops.zipIdx.filter (fun x => keptByTrim hops x.2 x.1) =
      hops.zipIdx.filter (fun x => decide (trimRank (weightAt hops) hops.length x.2 < 4)) :=
    List.filter_congr fun x hx => keptByTrim_iff hx
  have positions : keptPositions hops =
      (hops.zipIdx.filter fun x => decide (trimRank (weightAt hops) hops.length x.2 < 4)).map Prod.snd := by
    rw [keptPositions, ← map_snd_zipIdx, List.filter_map]
    rfl
  rw [trimHops, kept, positions, List.map_map, List.map_map]
  exact List.map_congr_left fun x hx => (getElem?_of_mem_zipIdx (List.mem_of_mem_filter hx)).symm

/-! ### The narrowed body -/

/-- The narrowed weight, by its quotient (02, R39). -/
theorem narrowWeight_eq (w : Nat) : narrowWeight w = if (w + 8) / 17 = 0 then 1 else (w + 8) / 17 := by
  unfold narrowWeight
  split <;> omega

/-- A stored weight narrows into 1..15 (02, R39). -/
theorem narrowWeight_range {w : Nat} (h : w ≤ 255) : 1 ≤ narrowWeight w ∧ narrowWeight w ≤ 15 := by
  unfold narrowWeight
  omega

/-- The narrowed list holds the entries at the positions kept, each with its weight narrowed. -/
theorem Body.narrow_hops_map_some (b : Body) :
    b.narrow.hops.map some = (keptPositions b.hops).map fun i => b.hops[i]?.map NextHop.narrow := by
  have trimmed := congrArg (List.map (Option.map NextHop.narrow)) (trimHops_map_some b.hops)
  simpa [Body.narrow, Function.comp_def] using trimmed

/-- What trimming keeps was in the list. -/
theorem mem_of_mem_trimHops {hops : List NextHop} {h : NextHop} (hm : h ∈ trimHops hops) : h ∈ hops := by
  obtain ⟨x, hx, rfl⟩ := List.mem_map.1 hm
  exact List.mem_of_getElem? (getElem?_of_mem_zipIdx (List.mem_of_mem_filter hx))

/-- The narrowed weights of stored weights. -/
theorem Body.narrow_weights {b : Body} (fits : ∀ h ∈ b.hops, h.weight ≤ 255) :
    ∀ h ∈ b.narrow.hops, 1 ≤ h.weight ∧ h.weight ≤ 15 := by
  intro h hm
  obtain ⟨x, hx, rfl⟩ := List.mem_map.1 hm
  exact narrowWeight_range (fits x (mem_of_mem_trimHops hx))

/-- The three counter bytes of the compact encoding (02, R40; 10, R198). -/
theorem encodeCounter_narrowCounter (counter : Option Nat) :
    encodeCounter (narrowCounter counter) =
      match counter with
      | some c => if c ≤ 65535 then toBytes 3 c else [0xFF, 0xFF, 0xFF]
      | none => [0xFF, 0xFF, 0xFF] := by
  have absent : encodeCounter none = [0xFF, 0xFF, 0xFF] := rfl
  cases counter with
  | none => exact absent
  | some c =>
    by_cases h : c ≤ 65535
    · simp [narrowCounter, h, encodeCounter]
    · simp [narrowCounter, h, absent]

/-- The action byte (10, R198). -/
theorem Action.code_eq (a : Action) :
    a.code = match a with
      | .forward => 1
      | .drop => 2
      | .punt => 3 := by
  cases a <;> rfl

/-- The compact encoding, laid out from the narrowed body behind the key (10, R198). -/
theorem Record.encode_compact (key : Key) (b : Body) :
    ({ key, body := b } : Record).encode .compact =
      key.encode ++ b.action.code :: (encodeHops b.narrow.hops ++ encodeCounter (narrowCounter b.counter)) := by
  simp [Record.encode, Body.narrow]

/-- A group is carried exactly when it differs. -/
theorem isSome_ite_none_some_iff {α : Type} (c : Prop) [Decidable c] (x : α) :
    (if c then none else some x).isSome = true ↔ ¬c := by
  simp [isSome_ite_none_some]

/-- Settles O22: the kept positions are those of rank below four in the order of trimming, of which there are as many as ranks;
the rest is read off the narrowed body. -/
theorem narrowing_trimsAndScales : Obligations.Narrowing_TrimsAndScales := by
  refine ⟨fun b => ?_, fun old new => ?_⟩
  · refine ⟨keptPositions b.hops, keptPositions_sorted _, fun i hi => ((mem_keptPositions _ i).1 hi).1,
      keptPositions_length _, fun i hi j hj dropped => ?order, ?entries, Body.narrow_weights, fun absent => ?absent,
      fun c present => ⟨fun small => ?small, fun large => ?large⟩, rfl, rfl, fun key => ?encoding⟩
    case order =>
      have i_lt := ((mem_keptPositions _ i).1 hi).1
      refine (keptPositions_before hi hj dropped).imp_right fun ⟨same, before⟩ => ⟨?_, before⟩
      simpa [weightAt, i_lt, hj] using same.symm
    case entries =>
      rw [Body.narrow_hops_map_some]
      simp only [← narrowWeight_eq]
      rfl
    case absent => simp [Body.narrow, narrowCounter, absent]
    case small => simp [Body.narrow, narrowCounter, present, small]
    case large => simp [Body.narrow, narrowCounter, present, large]
    case encoding =>
      have laid_out := Record.encode_compact key b
      rw [encodeCounter_narrowCounter, Action.code_eq] at laid_out
      exact laid_out
  · exact ⟨isSome_ite_none_some_iff _ _, isSome_ite_none_some_iff _ _, isSome_ite_none_some_iff _ _,
      by simpa using changedGroups_cls .compact old new⟩

end Sys2Proof.Machine
end

section
/-! SUPPORT. The settings and the scanner, step by step (03, R45 and R47; 09, R189): each move of the setup keeps the settings in
their ranges and every debounce counter below the debounce count. -/

namespace Sys2Proof.Machine

/-- The setup within its ranges: what `State.SettingsFit` says of it. -/
structure Setup.Fits (c : Setup) : Prop where
  debounce : c.settings.debounce = 4 ∨ c.settings.debounce = 8 ∨ c.settings.debounce = 16 ∨ c.settings.debounce = 32
  threshold : 16 ≤ c.settings.threshold ∧ c.settings.threshold ≤ 4096
  interval : c.settings.interval ≤ 255
  present_counts : ∀ i : Slot, c.present[i].count < c.settings.debounce
  lever_counts : ∀ i : Slot, c.lever[i].count < c.settings.debounce
  scan_due : c.nextScan ≤ 1000

/-- The invariant speaks of the setup alone. -/
theorem State.settingsFit_iff (s : State) : s.SettingsFit ↔ s.setup.Fits :=
  ⟨fun ⟨a, b, c, d, e, f⟩ => ⟨a, b, c, d, e, f⟩, fun ⟨a, b, c, d, e, f⟩ => ⟨a, b, c, d, e, f⟩⟩

/-! ### What each move makes of the counters -/

/-- A requested debounce count is rounded to an allowed one. -/
theorem roundDebounce_allowed (requested : Nat) :
    roundDebounce requested = 4 ∨ roundDebounce requested = 8 ∨ roundDebounce requested = 16 ∨ roundDebounce requested = 32 := by
  unfold roundDebounce
  (repeat' split) <;> simp

/-- A clamped value lies between its bounds. -/
theorem clamp_bounds {low high : Nat} (h : low ≤ high) (v : Nat) : low ≤ clamp low high v ∧ clamp low high v ≤ high := by
  unfold clamp
  omega

/-- A counter that would reach the debounce count goes back to 0. -/
theorem Input.scan_count_lt {debounce : Nat} (h : 0 < debounce) (x : Input) (sample : Bool) :
    (x.scan debounce sample).count < debounce := by
  unfold Input.scan
  split
  · exact h
  · split
    · exact h
    · next below => exact Nat.not_le.1 below

/-- One input of the scanner after a scan. -/
@[simp] theorem scanInputs_getElem (debounce : Nat) (inputs : Vector Input 16) (samples : BitVec 16) (i : Slot) :
    (scanInputs debounce inputs samples)[i] = inputs[i].scan debounce (samples.getLsbD i.val) := by
  have nth : allSlots[i.val]'(by simp [allSlots]) = i := by revert i; decide
  change (allSlots.map fun k => inputs[k].scan debounce (samples.getLsbD k.val))[i.val]'(by simp [allSlots]) = _
  rw [List.getElem_map, nth]

/-- Every input of the scanner is unseated after a reset. -/
theorem Scanner.reset_counts (i : Slot) : Scanner.reset.present[i].count = 0 ∧ Scanner.reset.lever[i].count = 0 := by
  simp [Scanner.reset, Input.reset]

/-- Every counter is 0 after SET_SCAN. -/
theorem Scanner.clearCounters_counts (c : Scanner) (i : Slot) :
    c.clearCounters.present[i].count = 0 ∧ c.clearCounters.lever[i].count = 0 := by
  simp [Scanner.clearCounters]

/-! ### Every step -/

theorem Setup.Fits.debounce_pos {c : Setup} (h : c.Fits) : 0 < c.settings.debounce := by
  have := h.debounce
  omega

/-- A reset of the scanner leaves every counter at 0 and the next scan a whole period away. -/
theorem Setup.Fits.scannerReset {c : Setup} (h : c.Fits) :
    ({ c with present := Scanner.reset.present, lever := Scanner.reset.lever, nextScan := Scanner.reset.nextScan } :
      Setup).Fits where
  debounce := h.debounce
  threshold := h.threshold
  interval := h.interval
  present_counts i := by rw [(Scanner.reset_counts i).1]; exact h.debounce_pos
  lever_counts i := by rw [(Scanner.reset_counts i).2]; exact h.debounce_pos
  scan_due := Nat.le_refl 1000

/-- Each move of the setup keeps it within its ranges. -/
theorem State.SetupMoves.fits {s : State} {c : Setup} (m : State.SetupMoves s c) (h : s.setup.Fits) : c.Fits := by
  cases m with
  | same => exact h
  | reset settings kept =>
    rcases kept with rfl | rfl
    · exact h.scannerReset
    · exact ((State.settingsFit_iff _).1 State.reset_settingsFit).scannerReset
  | scans present lever =>
    refine ⟨h.debounce, h.threshold, h.interval, fun i => ?_, fun i => ?_, Nat.le_refl 1000⟩
    · rw [scanInputs_getElem]; exact Input.scan_count_lt h.debounce_pos _ _
    · rw [scanInputs_getElem]; exact Input.scan_count_lt h.debounce_pos _ _
  | setScan requested =>
    have allowed := roundDebounce_allowed requested
    have pos : 0 < roundDebounce requested := by omega
    refine ⟨allowed, h.threshold, h.interval, fun i => ?_, fun i => ?_, h.scan_due⟩
    · rw [(Scanner.clearCounters_counts s.scanner i).1]; exact pos
    · rw [(Scanner.clearCounters_counts s.scanner i).2]; exact pos
  | setLaneAlarm requested mode =>
    exact ⟨h.debounce, clamp_bounds (by decide) requested, h.interval, h.present_counts, h.lever_counts, h.scan_due⟩
  | setAudit requested =>
    exact ⟨h.debounce, h.threshold, Nat.min_le_left _ _, h.present_counts, h.lever_counts, h.scan_due⟩

/-- A microsecond takes at most itself from the time to the next scan. -/
theorem State.tick_setup (s : State) : ∃ n ≤ s.scanner.nextScan, s.tick.setup = { s.setup with nextScan := n } := by
  unfold State.tick
  split
  · exact ⟨_, Nat.le_refl _, rfl⟩
  · exact ⟨_, Nat.sub_le _ _, rfl⟩

/-- Every step keeps the settings in their ranges and the counters below the debounce count. -/
theorem State.SettingsFit.step {s t : State} (h : s.SettingsFit) (run : step s = .next t) : t.SettingsFit := by
  rw [State.settingsFit_iff] at h ⊢
  unfold Machine.step at run
  split at run
  · injection run with run
    obtain ⟨n, less, e⟩ := s.tick_setup
    rw [← run, e]
    exact ⟨h.debounce, h.threshold, h.interval, h.present_counts, h.lever_counts, less.trans h.scan_due⟩
  · next c rest _ => exact (exec_setupMoves c run).fits h

end Sys2Proof.Machine
end

section
/-! SUPPORT. The queues of the request port, step by step (08, R175, R177, R180 and R181): all that a command can do to the request
queue, the response queue and the reserved entry, and that none of it breaks their capacities. -/

namespace Sys2Proof.Machine

/-- The queues and the reserved entry, with the store's phase and the two reset sources on which they depend. -/
structure Port where
  requests : List (List Byte)
  responses : List OutMessage
  storeInitTag : Option Tag
  phase : StorePhase
  powerOnReset : Bool
  pinAsserted : Bool

/-- The queues of a part. -/
def State.port (s : State) : Port :=
  { requests := s.requests, responses := s.responses, storeInitTag := s.storeInitTag, phase := s.store.phase
    powerOnReset := s.powerOnReset, pinAsserted := s.pinAsserted }

/-- The queues within their capacities: what `State.QueuesFit` says of them. -/
structure Port.Fits (c : Port) : Prop where
  requests_fit : c.requests.length ≤ 64
  requests_whole : ∀ m ∈ c.requests, m.length = 128
  responses_fit : c.responses.length + (if c.storeInitTag.isSome then 1 else 0) ≤ 256
  reserved_iff : c.storeInitTag.isSome = true ↔ c.phase = .initializing
  reset_empty : (c.powerOnReset || c.pinAsserted) = true → c.requests = [] ∧ c.responses = []

/-- The invariant speaks of the queues alone. -/
theorem State.queuesFit_iff (s : State) : s.QueuesFit ↔ s.port.Fits :=
  ⟨fun ⟨a, b, c, d, e⟩ => ⟨a, b, c, d, e⟩, fun ⟨a, b, c, d, e⟩ => ⟨a, b, c, d, e⟩⟩

/-! ### The moves of the queues -/

/-- What a command can make of the queues. -/
inductive State.PortMoves (s : State) : Port → Prop
  /-- Most events leave them as they are. -/
  | same : State.PortMoves s s.port
  /-- A message is placed in a free entry, in answer to the request that leaves its queue or as a notice (08, R177 and R184). -/
  | places (requests : List (List Byte)) (message : OutMessage) (awake : s.inReset = false)
      (room : s.responses.length + s.reserved < 256) (left : requests = s.requests ∨ ∃ m, s.requests = m :: requests) :
      State.PortMoves s { s.port with requests, responses := s.responses ++ [message] }
  /-- STORE_INIT begins: its request leaves the queue and a free entry is reserved (08, R180). -/
  | reserves (m : List Byte) (rest : List (List Byte)) (tag : Tag) (offered : s.Offers (kindOf m) m rest)
      (phase : s.store.phase = .uninitialized) :
      State.PortMoves s { s.port with requests := rest, storeInitTag := some tag, phase := .initializing }
  /-- STORE_INIT completes: its response takes the reserved entry (08, R180). -/
  | completes (message : OutMessage) (awake : s.inReset = false) (reserved : s.storeInitTag.isSome = true) :
      State.PortMoves s { s.port with responses := s.responses ++ [message], storeInitTag := none, phase := .initialized }
  /-- A whole request is written to a queue with a free entry (08, R175). -/
  | writes (bytes : List Byte) (awake : s.inReset = false) (whole : bytes.length = 128) (room : s.requests.length < 64) :
      State.PortMoves s { s.port with requests := s.requests ++ [bytes] }
  /-- The head message is read (08, R181). -/
  | reads : State.PortMoves s { s.port with responses := s.responses.tail }
  /-- A reset begins (08, R188). -/
  | holds (powerOnReset pinAsserted : Bool) :
      State.PortMoves s
        { requests := [], responses := [], storeInitTag := none, phase := .uninitialized, powerOnReset, pinAsserted }
  /-- A reset ends: RESET_DONE stands alone (08, R187). -/
  | ends (message : OutMessage) (phase : StorePhase) (settled : phase ≠ .initializing) (powerOnReset pinAsserted : Bool)
      (awake : (powerOnReset || pinAsserted) = false) :
      State.PortMoves s { requests := [], responses := [message], storeInitTag := none, phase, powerOnReset, pinAsserted }

theorem State.PortMoves.of_eq {s t : State} (h : t.port = s.port) : State.PortMoves s t.port := h ▸ .same

/-- Each move keeps the queues within their capacities. -/
theorem State.PortMoves.fits {s : State} {c : Port} (m : State.PortMoves s c) (h : s.port.Fits) : c.Fits := by
  obtain ⟨requests_fit, requests_whole, responses_fit, reserved_iff, reset_empty⟩ := h
  cases m with
  | same => exact ⟨requests_fit, requests_whole, responses_fit, reserved_iff, reset_empty⟩
  | places requests message awake room left =>
    have inside : requests.length ≤ s.requests.length ∧ ∀ m ∈ requests, m ∈ s.requests := by
      rcases left with rfl | ⟨m, e⟩
      · exact ⟨Nat.le_refl _, fun _ => id⟩
      · rw [e]; exact ⟨Nat.le_succ _, fun _ => List.mem_cons_of_mem m⟩
    refine ⟨inside.1.trans requests_fit, fun m hm => requests_whole m (inside.2 m hm), ?_, reserved_iff, fun held => ?_⟩
    · simp only [List.length_append, List.length_singleton]
      simp only [State.reserved] at room
      exact Nat.add_right_comm _ 1 _ ▸ room
    · exact (Bool.false_ne_true (awake.symm.trans held)).elim
  | reserves m rest tag offered phase =>
    obtain ⟨awake, queue, room, _⟩ := offered
    have inside : rest.length ≤ s.requests.length ∧ ∀ x ∈ rest, x ∈ s.requests := by
      rw [queue]; exact ⟨Nat.le_succ _, fun _ => List.mem_cons_of_mem m⟩
    refine ⟨inside.1.trans requests_fit, fun x hx => requests_whole x (inside.2 x hx), ?_, by simp, fun held => ?_⟩
    · exact Nat.lt_of_le_of_lt (Nat.le_add_right _ _) room
    · exact (Bool.false_ne_true (awake.symm.trans held)).elim
  | completes message awake reserved =>
    refine ⟨requests_fit, requests_whole, ?_, by simp, fun held => ?_⟩
    · have full : s.responses.length + 1 ≤ 256 := by simpa [State.port, reserved] using responses_fit
      simpa using full
    · exact (Bool.false_ne_true (awake.symm.trans held)).elim
  | writes bytes awake whole room =>
    refine ⟨by simpa using room, fun m hm => ?_, responses_fit, reserved_iff, fun held => ?_⟩
    · rcases List.mem_append.1 hm with hm | hm
      · exact requests_whole m hm
      · rw [List.mem_singleton.1 hm]; exact whole
    · exact (Bool.false_ne_true (awake.symm.trans held)).elim
  | reads =>
    refine ⟨requests_fit, requests_whole, ?_, reserved_iff, fun held => ?_⟩
    · refine Nat.le_trans (Nat.add_le_add_right ?_ _) responses_fit
      simp [State.port]
    · obtain ⟨empty, none⟩ := reset_empty held
      exact ⟨empty, by simp only [State.port] at none; simp [none]⟩
  | holds => exact ⟨by simp, by simp, by simp, by simp, fun _ => ⟨rfl, rfl⟩⟩
  | ends message phase settled _ _ awake =>
    exact ⟨by simp, by simp, by simp, by simpa using settled, fun held => (Bool.false_ne_true (awake.symm.trans held)).elim⟩

/-! ### What leaves the queues as they are -/

/-- What the copy engine's operations do is no change of the queues. -/
theorem State.port_of_outside {s t : State} (h : t.outside = s.outside) : t.port = s.port := by
  obtain ⟨_, requests, responses, _, tag, _, _, _, store, _, _, _, powered, pin, _⟩ := State.outside_fields h
  rw [State.port, requests, responses, tag, store, powered, pin, State.port]

@[simp] theorem State.setLane_port (s : State) (i : Slot) (l : Lane) : (s.setLane i l).port = s.port := rfl
@[simp] theorem State.setJob_port (s : State) (j : JobNo) (e : Option Job) : (s.setJob j e).port = s.port := rfl
@[simp] theorem State.mapLanes_port (s : State) (f : Lane → Lane) : (s.mapLanes f).port = s.port := rfl
@[simp] theorem State.identify_port (s : State) (i : Slot) : (s.identify i).port = s.port := rfl
@[simp] theorem State.arbitrate_port (s : State) : s.arbitrate.port = s.port := State.port_of_outside (by simp)
@[simp] theorem State.closeGrant_port (s : State) (j : JobNo) : (s.closeGrant j).port = s.port :=
  State.port_of_outside (by simp)
@[simp] theorem State.endOfWork_port (s : State) (j : JobNo) : (s.endOfWork j).port = s.port :=
  State.port_of_outside (by simp)
@[simp] theorem State.endJob_port (s : State) (j : JobNo) (outcome : JobState) : (s.endJob j outcome).port = s.port :=
  State.port_of_outside (by simp)
@[simp] theorem State.failJobOn_port (s : State) (i : Slot) (cause : JobCause) : (s.failJobOn i cause).port = s.port :=
  State.port_of_outside (by simp)
@[simp] theorem State.failBurst_port (s : State) (i : Slot) (b : Burst) : (s.failBurst i b).port = s.port :=
  State.port_of_outside (by simp)
@[simp] theorem State.reportRetired_port (s : State) (j : JobNo) (frames : List Frame) (digest : Option Word32) :
    (s.reportRetired j frames digest).port = s.port := State.port_of_outside (by simp)
@[simp] theorem State.resetLane_port (s : State) (i : Slot) : (s.resetLane i).port = s.port := by
  simp only [State.resetLane]
  split <;> rfl
@[simp] theorem State.startJob_port (s : State) (i : Slot) (facts : BoardFacts) (policy : Policy) (j : JobNo) :
    (s.startJob i facts policy j).port = s.port := by simp [State.startJob]
@[simp] theorem State.leaveBySeating_port (s : State) (i : Slot) (l : Lane) : (s.leaveBySeating i l).port = s.port := by
  unfold State.leaveBySeating
  split
  · rfl
  · simp
  · rfl
@[simp] theorem State.endIdentification_port (s : State) (i : Slot) (l : Lane) :
    (s.endIdentification i l).port = s.port := rfl
@[simp] theorem State.countNack_port (s : State) (i : Slot) : (s.countNack i).port = s.port := by
  unfold State.countNack
  split <;> rfl
@[simp] theorem State.countLoss_port (s : State) (i : Slot) : (s.countLoss i).port = s.port := by
  unfold State.countLoss
  split <;> rfl
theorem State.attemptEnds_port (s : State) {effect : Slot → State → State} (h : ∀ i, (effect i s).port = s.port) :
    (s.attemptEnds effect).port = s.port := by
  unfold State.attemptEnds
  split
  · rfl
  · split
    · exact h _
    · rfl
@[simp] theorem State.completeGrant_port (s : State) : s.completeGrant.port = s.port := by
  unfold State.completeGrant State.handOver
  (repeat' split) <;> simp <;> rfl

/-- An admitted change touches no queue, and the phase is the new store's. -/
theorem State.applyChange_port {s : State} {store : Store} (h : store.phase = s.store.phase) (k : Kind) (row : Nat)
    (entry : Profile → Option ApplyEntry) : (s.applyChange store k row entry).port = s.port := by
  unfold State.applyChange
  rw [State.arbitrate_port]
  simp only [State.port, State.mapJobs, State.mapLanes, h]

/-! ### The requests' decisions -/

/-- The state is another's with one more message on the response queue. -/
def State.Answers (s t : State) : Prop := ∃ message, t.port = { s.port with responses := s.responses ++ [message] }

theorem State.respond_answers {s t : State} (h : t.port = s.port) (m : List Byte) (status : Status) (body : Payload) :
    State.Answers s (t.respond m status body) :=
  ⟨{ responseTo m status body with overrun := t.overrun },
    (congrArg (fun c : Port => { c with responses := c.responses ++ [{ responseTo m status body with overrun := t.overrun }] }) h)⟩

theorem State.refuse_answers (s : State) (m : List Byte) (status : Status) : State.Answers s (s.refuse m status) :=
  State.respond_answers rfl m status .none

theorem State.decideInsert_answers (s : State) (m : List Byte) : State.Answers s (s.decideInsert m) := by
  unfold State.decideInsert
  split
  · exact s.refuse_answers ..
  · exact State.respond_answers (State.applyChange_port (by simp) ..) ..

theorem State.decideUpdate_answers (s : State) (m : List Byte) : State.Answers s (s.decideUpdate m) := by
  unfold State.decideUpdate
  split
  · exact s.refuse_answers ..
  · split
    · exact State.respond_answers rfl ..
    · exact State.respond_answers (State.applyChange_port (by simp) ..) ..

theorem State.decideRetire_answers (s : State) (m : List Byte) : State.Answers s (s.decideRetire m) := by
  unfold State.decideRetire
  split
  · exact s.refuse_answers ..
  · exact State.respond_answers (State.applyChange_port (by simp) ..) ..

theorem State.decideFind_answers (s : State) (m : List Byte) : State.Answers s (s.decideFind m) := by
  unfold State.decideFind
  (repeat' split) <;> exact State.respond_answers rfl ..

theorem State.decideReadRow_answers (s : State) (m : List Byte) : State.Answers s (s.decideReadRow m) := by
  unfold State.decideReadRow
  (repeat' split) <;> exact State.respond_answers rfl ..

theorem State.decideStoreStats_answers (s : State) (m : List Byte) : State.Answers s (s.decideStoreStats m) := by
  unfold State.decideStoreStats
  split <;> exact State.respond_answers rfl ..

theorem State.decideLaneStatus_answers (s : State) (m : List Byte) : State.Answers s (s.decideLaneStatus m) := by
  unfold State.decideLaneStatus
  split <;> exact State.respond_answers rfl ..

theorem State.decideLaneReset_answers (s : State) (m : List Byte) : State.Answers s (s.decideLaneReset m) := by
  unfold State.decideLaneReset
  split
  · exact s.refuse_answers ..
  · split
    · exact State.respond_answers (s.resetLane_port _) ..
    · exact s.refuse_answers ..

theorem State.decideLaneRelease_answers (s : State) (m : List Byte) : State.Answers s (s.decideLaneRelease m) := by
  simp only [State.decideLaneRelease]
  (repeat' split) <;> exact State.respond_answers rfl ..

theorem State.decideLaneClearAlarm_answers (s : State) (m : List Byte) : State.Answers s (s.decideLaneClearAlarm m) := by
  simp only [State.decideLaneClearAlarm]
  (repeat' split) <;> exact State.respond_answers rfl ..

theorem State.decideCopyStart_answers (s : State) (m : List Byte) : State.Answers s (s.decideCopyStart m) := by
  unfold State.decideCopyStart
  split
  · exact s.refuse_answers ..
  · exact State.respond_answers (s.startJob_port ..) ..

theorem State.decideCopyAbort_answers (s : State) (m : List Byte) : State.Answers s (s.decideCopyAbort m) := by
  unfold State.decideCopyAbort
  split
  · exact s.refuse_answers ..
  · split
    · exact s.refuse_answers ..
    · exact State.respond_answers (by simp) ..

theorem State.decideCopyStatus_answers (s : State) (m : List Byte) : State.Answers s (s.decideCopyStatus m) := by
  unfold State.decideCopyStatus
  (repeat' split) <;> exact State.respond_answers rfl ..

theorem State.decideSetScan_answers (s : State) (m : List Byte) : State.Answers s (s.decideSetScan m) := by
  unfold State.decideSetScan
  split <;> exact State.respond_answers rfl ..

theorem State.decideSetLaneAlarm_answers (s : State) (m : List Byte) : State.Answers s (s.decideSetLaneAlarm m) := by
  unfold State.decideSetLaneAlarm
  (repeat' split) <;> exact State.respond_answers rfl ..

theorem State.decideSetAudit_answers (s : State) (m : List Byte) : State.Answers s (s.decideSetAudit m) := by
  unfold State.decideSetAudit
  split <;> exact State.respond_answers rfl ..

/-! ### Every command -/

/-- A request command whose decision answers places its message in the free entry. -/
theorem State.takeRequest_portMoves (s : State) (isKind : Byte → Bool) {f : State → List Byte → State}
    (h : ∀ (a : State) (m : List Byte), State.Answers a (f a m)) : State.PortMoves s (s.takeRequest isKind f).port := by
  rcases State.takeRequest_cases s isKind f with e | ⟨m, rest, ⟨awake, queue, room, _⟩, _, e⟩
  · rw [e]; exact .same
  · obtain ⟨message, answered⟩ := h { s with requests := rest } m
    rw [e, answered]
    exact .places rest message awake room (.inr ⟨m, queue⟩)

/-- A command held in reset moves the queues as the command itself does outside reset, or not. -/
theorem State.unlessReset_portMoves (s : State) (f : State → State) (h : s.inReset = false → State.PortMoves s (f s).port) :
    State.PortMoves s (s.unlessReset f).port := by
  unfold State.unlessReset
  split
  · exact .same
  · next awake => exact h (Bool.eq_false_iff.2 awake)

/-- A command held in reset that touches no queue. -/
theorem State.unlessReset_portKept (s : State) (f : State → State) (h : (f s).port = s.port) :
    State.PortMoves s (s.unlessReset f).port :=
  s.unlessReset_portMoves f fun _ => .of_eq h

theorem State.decideStoreInit_portMoves {s : State} {m : List Byte} {rest : List (List Byte)}
    (offered : s.Offers (kindOf m) m rest) :
    State.PortMoves s (({ s with requests := rest } : State).decideStoreInit m).port := by
  obtain ⟨awake, queue, room, _⟩ := id offered
  unfold State.decideStoreInit
  split
  · next phase => exact .reserves m rest (tagOf m) offered phase
  · exact .places rest _ awake room (.inr ⟨m, queue⟩)

theorem Store.softReset_phase_ne (s : Store) : s.softReset.phase ≠ .initializing := by
  unfold Store.softReset
  split
  · next h => simp [h]
  · simp [Store.reset]

/-- A notice is placed only with free entries. -/
theorem State.placeNotice_portMoves {s : State} (awake : s.inReset = false) : State.PortMoves s s.placeNotice.port := by
  unfold State.placeNotice
  split
  · exact .same
  · next free =>
    have room : s.responses.length + s.reserved < 256 := by
      simp only [State.freeEntries, Config.responseCapacity, Config.noticeRoom] at free
      omega
    split
    · unfold State.placeNoticeAt
      split
      · exact .places s.requests _ awake room (.inl rfl)
      · unfold State.placeJobNotice
        split
        · exact .places s.requests _ awake room (.inl rfl)
        · exact .same
    · exact .same

/-- All that one command can do to the queues. -/
theorem exec_portMoves (c : Instr) {s t : State} (h : exec c s = .next t) : State.PortMoves s t.port := by
  cases c
  all_goals (injection h with h; subst h)
  case insert => exact s.takeRequest_portMoves _ State.decideInsert_answers
  case update => exact s.takeRequest_portMoves _ State.decideUpdate_answers
  case retire => exact s.takeRequest_portMoves _ State.decideRetire_answers
  case find => exact s.takeRequest_portMoves _ State.decideFind_answers
  case readRow => exact s.takeRequest_portMoves _ State.decideReadRow_answers
  case storeStats => exact s.takeRequest_portMoves _ State.decideStoreStats_answers
  case laneStatus => exact s.takeRequest_portMoves _ State.decideLaneStatus_answers
  case laneReset => exact s.takeRequest_portMoves _ State.decideLaneReset_answers
  case laneRelease => exact s.takeRequest_portMoves _ State.decideLaneRelease_answers
  case laneClearAlarm => exact s.takeRequest_portMoves _ State.decideLaneClearAlarm_answers
  case copyStart => exact s.takeRequest_portMoves _ State.decideCopyStart_answers
  case copyAbort => exact s.takeRequest_portMoves _ State.decideCopyAbort_answers
  case copyStatus => exact s.takeRequest_portMoves _ State.decideCopyStatus_answers
  case setScan => exact s.takeRequest_portMoves _ State.decideSetScan_answers
  case setLaneAlarm => exact s.takeRequest_portMoves _ State.decideSetLaneAlarm_answers
  case setAudit => exact s.takeRequest_portMoves _ State.decideSetAudit_answers
  case identify => exact s.takeRequest_portMoves _ fun _ _ => State.respond_answers rfl ..
  case unknownRequestKind => exact s.takeRequest_portMoves _ fun a m => a.refuse_answers m .badRequest
  case storeInit =>
    rcases State.takeRequest_cases s (· == 6#8) State.decideStoreInit with e | ⟨m, rest, offered, _, e⟩
    · exact .of_eq (congrArg State.port e)
    · exact (congrArg State.port e) ▸ State.decideStoreInit_portMoves offered
  case softReset =>
    rcases State.takeRequest_cases s (· == 19#8) State.decideSoftReset with e | ⟨m, rest, ⟨awake, _⟩, _, e⟩
    · exact .of_eq (congrArg State.port e)
    · exact (congrArg State.port e) ▸ .ends _ s.store.softReset.phase s.store.softReset_phase_ne _ _ awake
  case requestPortWrite bytes =>
    refine s.unlessReset_portMoves _ fun awake => ?_
    unfold State.writeRequest
    split
    · next fits => exact .writes bytes awake fits.1 fits.2
    · exact .same
  case responsePortRead n =>
    unfold State.readResponse
    split
    · exact .reads
    · exact .same
  case portWordWriteDiscarded => exact .same
  case powerOn => exact .holds true s.pinAsserted
  case resetPinAssert => exact .holds s.powerOnReset true
  case resetEnd =>
    unfold State.endReset
    split
    · exact .ends _ .uninitialized (by decide) _ _ rfl
    · exact .same
  case storeInitComplete =>
    refine s.unlessReset_portMoves _ fun awake => ?_
    unfold State.completeInit
    split
    · next tag _ reserved => exact .completes _ awake (by rw [reserved]; rfl)
    · exact .same
  case noticePlace => exact s.unlessReset_portMoves _ State.placeNotice_portMoves
  case scan =>
    refine s.unlessReset_portKept _ ?_
    unfold State.scanned
    split <;> rfl
  case presentRise =>
    refine s.unlessReset_portKept _ ?_
    simp only [State.takePresentRise]
    (repeat' split) <;> rfl
  case leverClose =>
    refine s.unlessReset_portKept _ ?_
    simp only [State.takeLeverClose]
    (repeat' split) <;> rfl
  case presentFall =>
    refine s.unlessReset_portKept _ ?_
    simp only [State.takePresentFall]
    split
    · rfl
    · split
      · rfl
      · rfl
      · exact State.leaveBySeating_port ..
  case leverOpen =>
    refine s.unlessReset_portKept _ ?_
    simp only [State.takeLeverOpen]
    split
    · rfl
    · split
      · rfl
      · rfl
      · exact State.leaveBySeating_port ..
  case idAttemptComplete => exact s.unlessReset_portKept _ (s.attemptEnds_port fun _ => rfl)
  case idNotAcknowledged => exact s.unlessReset_portKept _ (s.attemptEnds_port s.countNack_port)
  case idArbitrationLost => exact s.unlessReset_portKept _ (s.attemptEnds_port s.countLoss_port)
  case idWaitExpiry => exact s.unlessReset_portKept _ rfl
  case alignStepTimeout => exact s.unlessReset_portKept _ rfl
  case patternReplyTimeout => exact s.unlessReset_portKept _ rfl
  case locked =>
    refine s.unlessReset_portKept _ ?_
    split <;> rfl
  case patternResult =>
    refine s.unlessReset_portKept _ ?_
    split <;> rfl
  case transmissionComplete => exact s.unlessReset_portKept _ rfl
  case transmitterFill => exact s.unlessReset_portKept _ rfl
  case auditTimerExpiry => exact s.unlessReset_portKept _ rfl
  case burstAck =>
    refine s.unlessReset_portKept _ ?_
    simp only [State.takeAck, State.retireBurst]
    (repeat' split) <;> simp
  case ackTimeout =>
    refine s.unlessReset_portKept _ ?_
    unfold State.ackExpired
    (repeat' split) <;> simp
  case sweepExamination =>
    refine s.unlessReset_portKept _ ?_
    unfold State.examineRow
    (repeat' split) <;> rfl
  case drainRowTake =>
    refine s.unlessReset_portKept _ ?_
    unfold State.takeRow
    (repeat' split) <;> rfl
  case grantComplete => exact s.unlessReset_portKept _ s.completeGrant_port
  case freezeTimerExpiry =>
    refine s.unlessReset_portKept _ ?_
    unfold State.freezeExpired
    (repeat' split) <;> simp
  case sampleTimerExpiry =>
    refine s.unlessReset_portKept _ ?_
    unfold State.sampleExpired
    (repeat' split) <;> rfl

/-! ### Every step -/

/-- Time does not touch the queues. -/
@[simp] theorem State.tick_port (s : State) : s.tick.port = s.port := by
  unfold State.tick
  split <;> rfl

/-- Every step keeps the queues within their capacities. -/
theorem State.QueuesFit.step {s t : State} (h : s.QueuesFit) (run : step s = .next t) : t.QueuesFit := by
  rw [State.queuesFit_iff] at h ⊢
  unfold Machine.step at run
  split at run
  · injection run with run
    rw [← run, State.tick_port]
    exact h
  · next c rest _ => exact (exec_portMoves c run).fits h

/-- Settles O54: each command is one move of the queues and one of the setup, and no move breaks a capacity or a range. -/
theorem step_keepsQueuesAndSettings : Obligations.Step_KeepsQueuesAndSettings :=
  fun _ _ run => ⟨fun h => h.step run, fun h => h.step run⟩

end Sys2Proof.Machine
end

section
/-! SUPPORT. Single lanes: what a lane event leaves of the lane's state, its view, its board facts and its transmitter, and that
each event keeps these in agreement (03, R50 and R65; 04, R78, R81 and R94). -/

namespace Sys2Proof.Machine

/-! ### What the live machinery leaves -/

/-- Two lanes with the same state, board facts, view of their inputs, and transmitter. -/
structure Lane.SameFront (k l : Lane) : Prop where
  state : l.state = k.state
  facts : l.facts = k.facts
  present : l.present = k.present
  lever : l.lever = k.lever
  tx : l.tx = k.tx

theorem Lane.SameFront.refl (l : Lane) : Lane.SameFront l l := ⟨rfl, rfl, rfl, rfl, rfl⟩

theorem Lane.SameFront.trans {k l m : Lane} (h : Lane.SameFront k l) (h' : Lane.SameFront l m) : Lane.SameFront k m :=
  ⟨h'.state.trans h.state, h'.facts.trans h.facts, h'.present.trans h.present, h'.lever.trans h.lever, h'.tx.trans h.tx⟩

theorem Lane.testRaise_front (set : Settings) (l : Lane) : Lane.SameFront l (l.testRaise set) := by
  unfold Lane.testRaise
  split <;> exact ⟨rfl, rfl, rfl, rfl, rfl⟩

theorem Lane.testClear_front (set : Settings) (l : Lane) : Lane.SameFront l (l.testClear set) := by
  unfold Lane.testClear
  split <;> exact ⟨rfl, rfl, rfl, rfl, rfl⟩

theorem Lane.enqueue_front (set : Settings) (l : Lane) (e : ApplyEntry) : Lane.SameFront l (l.enqueue set e) := by
  rw [Lane.enqueue_eq]
  exact ⟨rfl, rfl, rfl, rfl, rfl⟩

theorem Lane.feed_front (set : Settings) (k : Kind) (entry : Profile → Option ApplyEntry) (l : Lane) :
    Lane.SameFront l (l.feed set k entry) := by
  unfold Lane.feed
  split
  · split
    · exact l.enqueue_front set _
    · exact .refl l
  · exact .refl l

theorem Lane.restartAudit_front (interval : Nat) (l : Lane) : Lane.SameFront l (l.restartAudit interval) := by
  unfold Lane.restartAudit
  split <;> exact ⟨rfl, rfl, rfl, rfl, rfl⟩

theorem Lane.repairStep_front (store : Store) (set : Settings) (l : Lane) : Lane.SameFront l (l.repairStep store set) := by
  obtain ⟨state, _, facts, present, lever, tx, _⟩ := Lane.repair_keeps store set Config.repairStepEntries l
  exact ⟨state, facts, present, lever, tx⟩

theorem Lane.placeAudit_front (store : Store) (set : Settings) (l : Lane) : Lane.SameFront l (l.placeAudit store set) :=
  (l.enqueue_front set _).trans ⟨rfl, rfl, rfl, rfl, rfl⟩

theorem Lane.auditExpiry_front (store : Store) (set : Settings) (l : Lane) : Lane.SameFront l (l.auditExpiry store set) := by
  have placed := l.placeAudit_front store set
  unfold Lane.auditExpiry
  split
  · exact ⟨rfl, rfl, rfl, rfl, rfl⟩
  · simp only []
    split
    · split
      · exact (placed.trans (Lane.placeAudit_front ..)).trans ⟨rfl, rfl, rfl, rfl, rfl⟩
      · exact placed
    · exact .refl l

theorem Lane.auditTick_front (store : Store) (set : Settings) (l : Lane) : Lane.SameFront l (l.auditTick store set) := by
  unfold Lane.auditTick
  split
  · exact (l.auditExpiry_front store set).trans ⟨rfl, rfl, rfl, rfl, rfl⟩
  · exact .refl l

theorem Lane.mismatch_front (store : Store) (set : Settings) (l : Lane) (segment : Nat) :
    Lane.SameFront l (l.mismatch store set segment) := by
  unfold Lane.mismatch
  simp only []
  split
  · exact ⟨rfl, rfl, rfl, rfl, rfl⟩
  · refine Lane.SameFront.trans ?_ (Lane.repairStep_front store set _)
    exact ⟨rfl, rfl, rfl, rfl, rfl⟩

theorem Lane.retiredLive_front (store : Store) (set : Settings) (l : Lane) (b : Burst) (digest : Option Word32) :
    Lane.SameFront l (l.retiredLive store set b digest) := by
  unfold Lane.retiredLive Lane.compareAudit
  split
  · split
    · exact .refl l
    · exact l.mismatch_front ..
  · exact .refl l

/-- A fill of a lane that may fill: the transmitter takes the head entries, and no more of the front changes. -/
theorem Lane.fill_front {l : Lane} (may : l.mayFill = true) (store : Store) (set : Settings) :
    ∃ frames snapshot, Lane.SameFront { l with tx := l.tx.take frames .applyQueue snapshot } (l.fill store set) := by
  have filled : Lane.SameFront l.dequeue (l.fill store set) := by
    rw [Lane.fill, if_pos may]
    exact (l.dequeue.testClear_front set).trans (Lane.repairStep_front store set _)
  exact ⟨_, _, Lane.SameFront.trans (l := l.dequeue) ⟨rfl, rfl, rfl, rfl, rfl⟩ filled⟩

/-! ### A lane in agreement with itself -/

/-- The lane state in which a client has its bursts (04, R78 and R94). -/
def Client.laneState : Client → LaneState
  | .training => .training
  | .job _ => .loading
  | .applyQueue => .live

/-- What `State.BlocksAgree` and a sound transmitter say of one lane alone: its view and its board facts are as its state has them,
nothing is outstanding in IDLE, and what is outstanding is its state's client's. -/
structure Lane.Sane (l : Lane) : Prop where
  seating : l.SeatingFits
  facts : l.FactsFit
  clear : l.tx.phase = .idle → l.tx.outstanding = none
  client : ∀ b ∈ l.tx.outstanding, l.state = b.client.laneState

theorem Lane.sane_of_released {l : Lane} (released : l.tx.outstanding = none) (seating : l.SeatingFits) (facts : l.FactsFit) :
    l.Sane :=
  ⟨seating, facts, fun _ => released, by simp [released]⟩

theorem Lane.Sane.of_front {k l : Lane} (h : k.Sane) (same : Lane.SameFront k l) : l.Sane := by
  obtain ⟨state, facts, present, lever, tx⟩ := same
  refine ⟨?_, ?_, by rw [tx]; exact h.clear, by rw [tx, state]; exact h.client⟩
  · have := h.seating
    rwa [Lane.SeatingFits, ← state, ← present, ← lever] at this
  · have := h.facts
    rwa [Lane.FactsFit, ← state, ← facts] at this

/-- A client's lane is in one of the three states that send bursts. -/
theorem Client.laneState_cases (c : Client) : c.laneState = .training ∨ c.laneState = .loading ∨ c.laneState = .live := by
  cases c <;> simp [Client.laneState]

/-- A lane in a state that sends no bursts has nothing outstanding. -/
theorem Lane.Sane.released {l : Lane} (h : l.Sane) (silent : ¬(l.state = .training ∨ l.state = .loading ∨ l.state = .live)) :
    l.tx.outstanding = none := by
  refine Option.eq_none_iff_forall_ne_some.2 fun b out => silent ?_
  rw [h.client b out]
  exact b.client.laneState_cases

/-- A lane that has given up its work has nothing outstanding. -/
theorem Lane.Sane.stripped_released {l : Lane} (h : l.Sane) : l.stripped.tx.outstanding = none := by
  unfold Lane.stripped
  simp only []
  split
  · rfl
  · next silent => exact h.released silent

/-- A lane with a burst of a job outstanding is LOADING. -/
theorem Lane.Sane.loading_of_job {l : Lane} (h : l.Sane) {b : Burst} (out : b ∈ l.tx.outstanding) {j : JobNo}
    (client : b.client = .job j) : l.state = .loading := by
  rw [h.client b out, client]
  rfl

/-- A lane that does not see its board is EMPTY. -/
theorem Lane.Sane.empty_of_absent {l : Lane} (h : l.Sane) (absent : l.present = false) : l.state = .empty := by
  have := h.seating
  unfold Lane.SeatingFits at this
  split at this <;> simp_all

/-- A lane that is neither EMPTY nor EXTRACTING sees its board seated and closed. -/
theorem Lane.Sane.seated {l : Lane} (h : l.Sane) (occupied : l.state ≠ .empty) (kept : l.state ≠ .extracting) :
    l.present = true ∧ l.lever = true := by
  have := h.seating
  unfold Lane.SeatingFits at this
  split at this
  · contradiction
  · contradiction
  · exact this

/-- A lane that leaves its state has nothing outstanding, whatever its view has become. -/
theorem Lane.Sane.moved {k l : Lane} (h : k.Sane) {present lever : Bool} {state : LaneState} {cause : Option LaneCause}
    (e : l = ({ k with present, lever } : Lane).moved state cause) (seating : l.SeatingFits) (facts : l.FactsFit) : l.Sane :=
  Lane.sane_of_released (e ▸ h.stripped_released) seating facts

/-- A lane in EMPTY, its view no longer a seated and closed board. -/
theorem Lane.Sane.vacated {k : Lane} (h : k.Sane) {present lever : Bool} (unseated : ¬(present = true ∧ lever = true))
    (cause : Option LaneCause) : (({ k with present, lever } : Lane).vacate cause).Sane := by
  rw [Lane.vacate_eq]
  exact Lane.sane_of_released h.stripped_released (show ¬(present = true ∧ lever = true) from unseated) rfl

/-- A lane in IDENTIFYING, its board seated and closed. -/
theorem Lane.Sane.identified {k : Lane} (h : k.Sane) {present lever : Bool} (seated : present = true ∧ lever = true) :
    ({ k with present, lever } : Lane).identify.Sane := by
  rw [Lane.identify_eq]
  exact Lane.sane_of_released h.stripped_released (show present = true ∧ lever = true from seated) rfl

/-- A lane in EXTRACTING, its lever open. -/
theorem Lane.Sane.extracted {k : Lane} (h : k.Sane) (present : k.present = true) :
    ({ k with lever := false } : Lane).extract.Sane := by
  rw [Lane.extract_eq]
  exact h.moved rfl ⟨present, rfl⟩ trivial

/-- A lane in FAULTED. -/
theorem Lane.Sane.faulted {k : Lane} (h : k.Sane) (occupied : k.state ≠ .empty) (kept : k.state ≠ .extracting)
    (cause : LaneCause) : (k.fault cause).Sane := by
  rw [Lane.fault_eq]
  exact h.moved (present := k.present) (lever := k.lever) rfl (h.seated occupied kept) trivial

/-- A lane in READY. -/
theorem Lane.Sane.readied {k : Lane} (h : k.Sane) (source : k.state = .training ∨ k.state = .loading ∨ k.state = .live)
    (cause : Option LaneCause) : (k.moved .ready cause).Sane := by
  have seated : k.present = true ∧ k.lever = true := by
    refine h.seated ?_ ?_ <;> rcases source with e | e | e <;> simp [e]
  have known : k.facts.isSome = true := by
    have := h.facts
    rcases source with e | e | e <;> simpa [Lane.FactsFit, e] using this
  exact h.moved (present := k.present) (lever := k.lever) rfl seated known

/-! ### Lane events -/

/-- The lane `l` comes from `k` by an event of the lane alone: it agrees with itself, it has neither joined nor left the FIFO or a
job, it has not gone LIVE, and a burst of a job was already outstanding. -/
structure Lane.Turned (k l : Lane) : Prop where
  sane : l.Sane
  identifying : l.state = .identifying ↔ k.state = .identifying
  loading : l.state = .loading ↔ k.state = .loading
  live : l.state = .live → k.state = .live
  jobs : ∀ b ∈ l.tx.outstanding, ∀ j, b.client = .job j → ∃ a ∈ k.tx.outstanding, a.client = .job j

/-- Nothing of the lane's front changes. -/
theorem Lane.Sane.turned_same {k l : Lane} (h : k.Sane) (same : Lane.SameFront k l) : Lane.Turned k l where
  sane := h.of_front same
  identifying := by rw [same.state]
  loading := by rw [same.state]
  live := by rw [same.state]; exact id
  jobs b out j client := ⟨b, same.tx ▸ out, client⟩

/-- Only the transmitter changes: what is outstanding was so before, or is the lane's own client's and no job's. -/
theorem Lane.Sane.turned_link {k l : Lane} (h : k.Sane) (tx : Transmitter) (same : Lane.SameFront { k with tx } l)
    (clear : tx.phase = .idle → tx.outstanding = none)
    (client : ∀ b ∈ tx.outstanding, (∃ a ∈ k.tx.outstanding, a.client = b.client) ∨
      (k.state = b.client.laneState ∧ ∀ j, b.client ≠ .job j)) : Lane.Turned k l := by
  have sane : ({ k with tx } : Lane).Sane := by
    refine ⟨h.seating, h.facts, clear, fun b out => ?_⟩
    rcases client b out with ⟨a, outA, e⟩ | ⟨e, _⟩
    · rw [← e]; exact h.client a outA
    · exact e
  refine ⟨sane.of_front same, by rw [same.state], by rw [same.state], by rw [same.state]; exact id, fun b out j e => ?_⟩
  rw [same.tx] at out
  rcases client b out with ⟨a, outA, e'⟩ | ⟨_, no⟩
  · exact ⟨a, outA, e'.trans e⟩
  · exact absurd e (no j)

/-- The outstanding burst is given up. -/
theorem Lane.Sane.turned_released {k l : Lane} (h : k.Sane) (same : Lane.SameFront { k with tx := k.tx.release } l) :
    Lane.Turned k l :=
  h.turned_link _ same (fun _ => rfl) (by simp [Transmitter.release])

/-- The transmitter takes a burst of the lane's own client. -/
theorem Lane.Sane.turned_takes {k l : Lane} (h : k.Sane) {tx : Transmitter} {frames : List Frame} {client : Client}
    {snapshot : Option Word32} (same : Lane.SameFront { k with tx := tx.take frames client snapshot } l)
    (own : k.state = client.laneState) (noJob : ∀ j, client ≠ .job j) : Lane.Turned k l :=
  h.turned_link _ same (by simp [Transmitter.take]) (by simp [Transmitter.take, own, noJob])

/-- The lane leaves its state for one without work. -/
theorem Lane.Sane.turned_departs {k l : Lane} (h : l.Sane) (source : k.state ≠ .identifying ∧ k.state ≠ .loading)
    (target : l.state ≠ .identifying ∧ l.state ≠ .loading ∧ l.state ≠ .live) : Lane.Turned k l where
  sane := h
  identifying := iff_of_false target.1 source.1
  loading := iff_of_false target.2.1 source.2
  live e := absurd e target.2.2
  jobs _ out _ client := absurd (h.loading_of_job out client) target.2.1

/-- An EMPTY lane's view changes, not to a seated and closed board. -/
theorem Lane.Sane.turned_view {k : Lane} (h : k.Sane) (empty : k.state = .empty) {present lever : Bool}
    (unseated : ¬(present = true ∧ lever = true)) : Lane.Turned k { k with present, lever } where
  sane := ⟨by simpa [Lane.SeatingFits, empty] using unseated, h.facts, h.clear, h.client⟩
  identifying := Iff.rfl
  loading := Iff.rfl
  live := id
  jobs b out j client := ⟨b, out, client⟩

/-! ### Training -/

theorem Lane.inStep_iff (l : Lane) (step : TrainStep) : l.inStep step = true ↔ l.state = .training ∧ l.step = some step := by
  simp [Lane.inStep]

/-- An ALIGN step begins. -/
theorem Lane.Sane.turned_aligning {k : Lane} (h : k.Sane) (training : k.state = .training) (attempt : Nat) :
    Lane.Turned k (k.aligning attempt) := by
  by_cases idle : k.tx.phase = .idle
  · have same : Lane.SameFront { k with tx := k.tx.take (List.replicate 8 .align) .training none } (k.aligning attempt) :=
      ⟨rfl, rfl, rfl, rfl, if_pos idle⟩
    exact h.turned_takes same training (by simp)
  · exact h.turned_same ⟨rfl, rfl, rfl, rfl, if_neg idle⟩

/-- A training burst is handed over when the transmitter is IDLE. -/
theorem Lane.Sane.turned_sendTest {k : Lane} (h : k.Sane) (training : k.state = .training) : Lane.Turned k k.sendTest := by
  unfold Lane.sendTest
  split
  · exact h.turned_takes ⟨rfl, rfl, rfl, rfl, rfl⟩ training (by simp)
  · exact h.turned_same (.refl k)

/-- The third attempt has failed. -/
theorem Lane.Sane.turned_fails {k : Lane} (h : k.Sane) (training : k.state = .training) (cause : LaneCause) :
    Lane.Turned k (k.fault cause) :=
  (h.faulted (by simp [training]) (by simp [training]) cause).turned_departs (by simp [training])
    (by simp [Lane.fault, Lane.goto])

/-- A training attempt fails. -/
theorem Lane.Sane.turned_failAttempt {k : Lane} (h : k.Sane) (training : k.state = .training) :
    Lane.Turned k k.failAttempt := by
  unfold Lane.failAttempt
  split
  · rw [Lane.beginAlign_attempt]
    exact h.turned_aligning training _
  · exact h.turned_fails training _

/-- A transmission ends. -/
theorem Lane.Sane.turned_sent {k : Lane} (h : k.Sane) : Lane.Turned k k.sent := by
  unfold Lane.sent
  split
  · split
    · next training =>
      unfold Lane.trainingSent
      simp only []
      split
      · exact h.turned_takes ⟨rfl, rfl, rfl, rfl, rfl⟩ training (by simp)
      · split
        · exact h.turned_takes ⟨rfl, rfl, rfl, rfl, rfl⟩ training (by simp)
        · exact h.turned_released ⟨rfl, rfl, rfl, rfl, rfl⟩
      · exact h.turned_released (.refl _)
    · exact h.turned_link _ (.refl _) (by simp [Transmitter.await]) fun b out => .inl ⟨b, out, rfl⟩
  · exact h.turned_same (.refl k)
  · exact h.turned_same (.refl k)

/-- An awaited burst is outstanding. -/
theorem Transmitter.awaited_outstanding {t : Transmitter} {b : Burst} (h : t.awaited = some b) : b ∈ t.outstanding := by
  unfold Transmitter.awaited at h
  split at h
  · exact h
  · cases h
  · cases h

/-! ### Every lane event -/

/-- Each event of a lane alone keeps the lane in agreement with itself and leaves FIFO and jobs their lanes. -/
theorem Lane.Turns.turned {store : Store} {set : Settings} {k l : Lane} (event : Lane.Turns store set k l) (h : k.Sane) :
    Lane.Turned k l := by
  cases event with
  | unmark => exact h.turned_same ⟨rfl, rfl, rfl, rfl, rfl⟩
  | sent => exact h.turned_sent
  | alignExpired =>
    unfold Lane.alignExpired
    split
    · next due =>
      rw [Bool.and_eq_true, Lane.inStep_iff] at due
      exact h.turned_failAttempt due.1.1
    · exact h.turned_same (.refl k)
  | replyExpired =>
    unfold Lane.replyExpired
    split
    · next due =>
      rw [Bool.and_eq_true, Lane.inStep_iff] at due
      exact h.turned_failAttempt due.1.1
    · exact h.turned_same (.refl k)
  | locked =>
    unfold Lane.takeLocked
    split
    · next aligning =>
      have training := ((k.inStep_iff _).1 aligning).1
      have begun : Lane.Turned k { k with step := some .pattern, alignTimer := none, replyTimer := none, testsTaken := 0 } :=
        h.turned_same ⟨rfl, rfl, rfl, rfl, rfl⟩
      have sent := begun.sane.turned_sendTest training
      exact ⟨sent.sane, sent.identifying, sent.loading, sent.live, sent.jobs⟩
    · exact h.turned_same (.refl k)
  | pattern failures =>
    unfold Lane.takePattern
    split
    · next waits =>
      rw [Bool.and_eq_true, Lane.inStep_iff] at waits
      split
      · rw [Lane.passTraining, Lane.abandon_goto_keep]
        exact (h.readied (.inl waits.1.1) _).turned_departs (by simp [waits.1.1]) (by simp [Lane.moved])
      · exact h.turned_failAttempt waits.1.1
    · exact h.turned_same (.refl k)
  | fill =>
    by_cases may : k.mayFill = true
    · have live : k.state = .live := by
        simp only [Lane.mayFill, Bool.and_eq_true, decide_eq_true_eq] at may
        exact may.1.1
      obtain ⟨frames, snapshot, same⟩ := Lane.fill_front may store set
      exact h.turned_takes same live (by simp)
    · rw [Lane.fill, if_neg may]
      exact h.turned_same (.refl k)
  | audit => exact h.turned_same (k.auditTick_front store set)
  | rise absent out =>
    have empty := h.empty_of_absent absent
    exact h.turned_view empty fun seated => out ⟨empty, seated.2⟩
  | close opened out =>
    have empty : k.state = .empty := by
      by_contra occupied
      have closed := (h.seated occupied fun e => out (.inr e)).2
      rw [opened] at closed
      cases closed
    exact h.turned_view empty fun seated => out (.inl ⟨empty, seated.1⟩)
  | fallEmpty empty => exact h.turned_view empty (by simp)
  | fallExtracting extracting =>
    exact (h.vacated (by simp) _).turned_departs (by simp [extracting]) (by simp [Lane.vacate, Lane.goto])
  | fall source =>
    exact (h.vacated (by simp) _).turned_departs (by rcases source with e | e | e | e <;> simp [e])
      (by simp [Lane.vacate, Lane.goto])
  | openOut source =>
    rcases source with empty | extracting
    · exact h.turned_view empty (by simp)
    · have opened : k.lever = false := by
        have := h.seating
        simp only [Lane.SeatingFits, extracting] at this
        exact this.2
      exact h.turned_same ⟨rfl, rfl, rfl, opened.symm, rfl⟩
  | extract source =>
    have present : k.present = true := by
      refine (h.seated ?_ ?_).1 <;> rcases source with e | e | e | e <;> simp [e]
    exact (h.extracted present).turned_departs (by rcases source with e | e | e | e <;> simp [e])
      (by simp [Lane.extract, Lane.goto])
  | resetOut resettable unseated =>
    refine (h.vacated (present := k.present) (lever := k.lever) unseated none).turned_departs ?_
      (by simp [Lane.vacate, Lane.goto])
    constructor <;> intro e <;> simp [e, LaneState.resettable] at resettable
  | release live =>
    rw [Lane.abandon_goto_eq]
    exact (h.readied (.inr (.inr live)) _).turned_departs (by simp [live]) (by simp [Lane.moved])
  | clearAlarm => exact h.turned_same ⟨rfl, rfl, rfl, rfl, rfl⟩
  | retireTraining => exact h.turned_released (.refl _)
  | retireLive => exact h.turned_released (Lane.retiredLive_front ..)
  | resend b awaited =>
    refine h.turned_link _ (.refl _) (by simp [Transmitter.resend]) fun x hx =>
      .inl ⟨b, Transmitter.awaited_outstanding awaited, ?_⟩
    rw [← Option.some.inj hx]
  | linkFault live =>
    exact (h.faulted (by simp [live]) (by simp [live]) _).turned_departs (by simp [live]) (by simp [Lane.fault, Lane.goto])
  | dropBurst => exact h.turned_released (.refl _)

end Sys2Proof.Machine
end

section
/-! SUPPORT. The blocks' agreement, command by command (03, R50, R60 and R65; 04, R94; 06, R118 and R124): it is taken apart into
what each lane holds by itself, what FIFO and lanes, jobs and lanes, and store and lanes hold together, and each move keeps it. -/

namespace Sys2Proof.Machine

/-! ### The agreement in parts -/

/-- The FIFO holds the IDENTIFYING lanes' slots, and the master serves its head (03, R60). -/
structure State.FifoAgrees (s : State) : Prop where
  fifo_iff : ∀ i, i ∈ s.master.fifo ↔ (s.lane i).state = .identifying
  once : s.master.fifo.Nodup
  idle : s.master.phase = .idle ↔ s.master.fifo = []
  attempts : s.master.nacks ≤ 2 ∧ s.master.losses ≤ 7

/-- A lane is LOADING exactly when one non-terminal job targets it; a grant is of such a job, with nothing outstanding, and a job's
burst is of the job on the lane (04, R94; 06, R118 and R124). -/
structure State.JobsAgree (s : State) : Prop where
  loading_iff : ∀ i, (s.lane i).state = .loading ↔ ∃ j, s.TargetedBy i j
  one_job : ∀ i j k, s.TargetedBy i j → s.TargetedBy i k → j = k
  granted : ∀ g ∈ s.grant, ∃ i, s.TargetedBy i g.job ∧ (s.lane i).tx.outstanding = none
  bursts : ∀ i, ∀ b ∈ (s.lane i).tx.outstanding, ∀ j, b.client = .job j → s.TargetedBy i j

/-- Only an INITIALIZED store has jobs and LIVE lanes (06, R120). -/
def State.StoreAgrees (s : State) : Prop :=
  s.store.phase ≠ .initialized → (∀ j, s.job j = none) ∧ ∀ i, (s.lane i).state ≠ .live

/-- The blocks agree, and no IDLE transmitter has a burst outstanding. -/
structure State.Coherent (s : State) : Prop where
  lanes : ∀ i, (s.lane i).Sane
  fifo : s.FifoAgrees
  jobs : s.JobsAgree
  store : s.StoreAgrees

/-- A job number targets one slot. -/
theorem State.TargetedBy.slot_eq {s : State} {i k : Slot} {j : JobNo} (h : s.TargetedBy i j) (h' : s.TargetedBy k j) : i = k := by
  obtain ⟨job, e, _, rfl⟩ := h
  obtain ⟨other, e', _, rfl⟩ := h'
  rw [e] at e'
  rw [Option.some.inj e']

/-- Blocks that agree, with sound transmitters, are coherent. -/
theorem State.BlocksAgree.coherent {s : State} (h : s.BlocksAgree) (sound : s.LinksSound) : s.Coherent where
  lanes i := by
    refine ⟨h.seating i, h.facts i, (sound.lanes i).idle_iff.1, fun b out => ?_⟩
    have fits := h.client i b out
    revert fits
    cases b.client with
    | training => exact id
    | job j => exact And.left
    | applyQueue => exact id
  fifo := ⟨h.fifo_iff, h.fifo_once, h.master_idle, h.attempts⟩
  jobs := by
    refine ⟨h.loading_iff, h.one_job, fun g hg => ?_, fun i b out j client => ?_⟩
    · obtain ⟨job, hj, working, out⟩ := h.granted g hg
      exact ⟨job.slot, ⟨job, hj, working, rfl⟩, out⟩
    · have fits := h.client i b out
      rw [client] at fits
      exact fits.2
  store := h.initialized

/-- The blocks of a coherent part agree. -/
theorem State.Coherent.blocksAgree {s : State} (h : s.Coherent) : s.BlocksAgree where
  fifo_iff := h.fifo.fifo_iff
  fifo_once := h.fifo.once
  master_idle := h.fifo.idle
  attempts := h.fifo.attempts
  loading_iff := h.jobs.loading_iff
  one_job := h.jobs.one_job
  granted g hg := by
    obtain ⟨_, ⟨job, hj, working, rfl⟩, out⟩ := h.jobs.granted g hg
    exact ⟨job, hj, working, out⟩
  client i b out := by
    have own := (h.lanes i).client b out
    have jobs := h.jobs.bursts i b out
    revert own jobs
    cases b.client with
    | training => exact fun own _ => own
    | job j => exact fun own jobs => ⟨own, jobs j rfl⟩
    | applyQueue => exact fun own _ => own
  seating i := (h.lanes i).seating
  facts i := (h.lanes i).facts
  initialized := h.store

/-- A part with a job has an INITIALIZED store. -/
theorem State.Coherent.initialized_of_targeted {s : State} (h : s.Coherent) {i : Slot} {j : JobNo} (ht : s.TargetedBy i j) :
    s.store.phase = .initialized := by
  by_contra phase
  obtain ⟨job, e, _⟩ := ht
  rw [(h.store phase).1 j] at e
  cases e

/-- The job of a grant is in the table and non-terminal. -/
theorem State.Coherent.working_of_grant {s : State} (h : s.Coherent) {g : Grant} {job : Job} (hg : s.grant = some g)
    (hj : s.job g.job = some job) : job.state.working = true := by
  obtain ⟨_, ⟨other, e, working, _⟩, _⟩ := h.jobs.granted g hg
  rw [hj] at e
  rw [Option.some.inj e]
  exact working

/-! ### Changes that leave the lanes in their roles -/

/-- FIFO and lanes still agree when no lane enters or leaves IDENTIFYING. -/
theorem State.FifoAgrees.of_same {s t : State} (h : s.FifoAgrees) (master : t.master = s.master)
    (identifying : ∀ i, (t.lane i).state = .identifying ↔ (s.lane i).state = .identifying) : t.FifoAgrees where
  fifo_iff i := by rw [master, identifying, h.fifo_iff]
  once := by rw [master]; exact h.once
  idle := by rw [master]; exact h.idle
  attempts := by rw [master]; exact h.attempts

/-- Jobs and lanes still agree when the same jobs target the same LOADING lanes, and bursts of jobs and grants were so before. -/
theorem State.JobsAgree.of_same {s t : State} (h : s.JobsAgree) (sane : ∀ i, (t.lane i).Sane)
    (targets : ∀ i j, t.TargetedBy i j ↔ s.TargetedBy i j)
    (loading : ∀ i, (t.lane i).state = .loading ↔ (s.lane i).state = .loading)
    (bursts : ∀ i, ∀ b ∈ (t.lane i).tx.outstanding, ∀ j, b.client = .job j →
      ∃ a ∈ (s.lane i).tx.outstanding, a.client = .job j)
    (grant : ∀ g ∈ t.grant, ∃ g' ∈ s.grant, g'.job = g.job) : t.JobsAgree where
  loading_iff i := by simp only [loading, targets, h.loading_iff]
  one_job i j k hj hk := h.one_job i j k ((targets i j).1 hj) ((targets i k).1 hk)
  granted g hg := by
    obtain ⟨g', hg', e⟩ := grant g hg
    obtain ⟨i, target, released⟩ := h.granted g' hg'
    rw [e] at target
    refine ⟨i, (targets i _).2 target, Option.eq_none_iff_forall_ne_some.2 fun b out => ?_⟩
    have busy : (t.lane i).state = .loading := (loading i).2 ((h.loading_iff i).2 ⟨_, target⟩)
    have own := (sane i).client b out
    rw [busy] at own
    cases client : b.client with
    | training => rw [client] at own; cases own
    | applyQueue => rw [client] at own; cases own
    | job j =>
      obtain ⟨a, out', _⟩ := bursts i b out j client
      rw [released] at out'
      cases out'
  bursts i b out j client := by
    obtain ⟨a, out', client'⟩ := bursts i b out j client
    exact (targets i j).2 (h.bursts i a out' j client')

/-- A part stays coherent when every lane takes an event of its own at most, and the jobs, the grant and the store keep what the
blocks agree on. -/
theorem State.Coherent.of_turned {s t : State} (h : s.Coherent) (master : t.master = s.master)
    (lanes : ∀ i, Lane.Turned (s.lane i) (t.lane i)) (targets : ∀ i j, t.TargetedBy i j ↔ s.TargetedBy i j)
    (free : ∀ j, s.job j = none → t.job j = none) (grant : ∀ g ∈ t.grant, ∃ g' ∈ s.grant, g'.job = g.job)
    (phase : t.store.phase ≠ .initialized → s.store.phase ≠ .initialized) : t.Coherent where
  lanes i := (lanes i).sane
  fifo := h.fifo.of_same master fun i => (lanes i).identifying
  jobs := h.jobs.of_same (fun i => (lanes i).sane) targets (fun i => (lanes i).loading) (fun i => (lanes i).jobs) grant
  store held := ⟨fun j => free j ((h.store (phase held)).1 j), fun i live => (h.store (phase held)).2 i ((lanes i).live live)⟩

/-- A lane's own event. -/
theorem State.Coherent.turn {s : State} (h : s.Coherent) {i : Slot} {l : Lane} (turned : Lane.Turned (s.lane i) l) :
    (s.setLane i l).Coherent := by
  refine h.of_turned rfl (fun k => ?_) (fun _ _ => Iff.rfl) (fun _ => id) (fun g hg => ⟨g, hg, rfl⟩) id
  by_cases e : k = i
  · subst e
    rw [State.lane_setLane_self]
    exact turned
  · rw [State.lane_setLane_of_ne s l e]
    exact (h.lanes k).turned_same (.refl _)

/-- Every lane's front is kept. -/
theorem State.Coherent.of_fronts {s t : State} (h : s.Coherent) (master : t.master = s.master)
    (lanes : ∀ i, Lane.SameFront (s.lane i) (t.lane i)) (targets : ∀ i j, t.TargetedBy i j ↔ s.TargetedBy i j)
    (free : ∀ j, s.job j = none → t.job j = none) (grant : t.grant = s.grant)
    (phase : t.store.phase ≠ .initialized → s.store.phase ≠ .initialized) : t.Coherent :=
  h.of_turned master (fun i => (h.lanes i).turned_same (lanes i)) targets free (fun g hg => ⟨g, grant ▸ hg, rfl⟩) phase

/-- Fields of other blocks do not matter. -/
theorem State.Coherent.of_same {s t : State} (h : s.Coherent) (same : State.SamePart s t) : t.Coherent := by
  have lane : ∀ i, t.lane i = s.lane i := fun i => congrArg (fun v : Vector Lane 16 => v[i]) same.lanes
  have job : ∀ j, t.job j = s.job j := fun j => congrArg (fun v : Vector (Option Job) 4 => v[j]) same.jobs
  refine h.of_fronts same.master (fun i => ?_) (fun i j => ?_) (fun j => ?_) same.grant ?_
  · rw [lane]; exact .refl _
  · simp only [State.TargetedBy, job]
  · rw [job]; exact id
  · rw [same.store]; exact id

/-- The grant changes: to none, or to one of a job on whose lane nothing is outstanding. -/
theorem State.Coherent.regrant {s t : State} (h : s.Coherent) (same : State.SamePart { s with grant := t.grant } t)
    (granted : ∀ g ∈ t.grant, ∃ i, s.TargetedBy i g.job ∧ (s.lane i).tx.outstanding = none) : t.Coherent :=
  have coherent : ({ s with grant := t.grant } : State).Coherent :=
    ⟨h.lanes, ⟨h.fifo.fifo_iff, h.fifo.once, h.fifo.idle, h.fifo.attempts⟩,
      ⟨h.jobs.loading_iff, h.jobs.one_job, granted, h.jobs.bursts⟩, h.store⟩
  coherent.of_same same

/-- An entry of the job table changes and keeps its slot and whether it is terminal. -/
theorem State.targetedBy_setJob {s : State} {j : JobNo} {job after : Job} (hj : s.job j = some job)
    (slot : after.slot = job.slot) (working : after.state.working = job.state.working) (i : Slot) (k : JobNo) :
    (s.setJob j (some after)).TargetedBy i k ↔ s.TargetedBy i k := by
  unfold State.TargetedBy
  by_cases e : k = j
  · subst e
    simp [hj, slot, working]
  · rw [State.job_setJob_of_ne s _ e]

/-- An entry written back is no change. -/
theorem State.setJob_same {s : State} {j : JobNo} {job : Job} (h : s.job j = some job) : s.setJob j (some job) = s := by
  have e : s.jobs.set j (some job) = s.jobs := by
    rw [← h]
    ext k hk
    by_cases e : (j : Nat) = k <;> simp [State.job, e]
  simp only [State.setJob, e]

/-- An entry changes and keeps its slot and whether it is terminal. -/
theorem State.Coherent.setJob {s : State} (h : s.Coherent) {j : JobNo} {job after : Job} (hj : s.job j = some job)
    (slot : after.slot = job.slot) (working : after.state.working = job.state.working) :
    (s.setJob j (some after)).Coherent := by
  refine h.of_fronts rfl (fun i => .refl _) (State.targetedBy_setJob hj slot working) (fun k free => ?_) rfl id
  have other : k ≠ j := by
    rintro rfl
    rw [hj] at free
    cases free
  rwa [State.job_setJob_of_ne s _ other]

/-! ### The arbiter -/

/-- The arbiter grants only to a non-terminal job whose transmitter is IDLE (06, R125). -/
theorem State.Coherent.arbitrate {s : State} (h : s.Coherent) : s.arbitrate.Coherent := by
  rcases s.arbitrate_cases with ⟨e, _⟩ | ⟨k, job, fp, lp, _, eligible, hj, e⟩
  · rw [e]; exact h
  · rw [e]
    obtain ⟨other, hj', working, _, _, idle⟩ := State.eligible_working eligible
    obtain rfl : other = job := Option.some.inj (hj'.symm.trans hj)
    have opened := h.setJob hj (Job.opened_slot other) (by rw [Job.opened_state])
    refine opened.regrant ⟨rfl, rfl, rfl, rfl, rfl, rfl⟩ fun g hg => ?_
    obtain rfl := Option.some.inj hg
    exact ⟨other.slot, ⟨other.opened, State.job_setJob_self s k _, by simpa using working, by simp⟩,
      (h.lanes other.slot).clear idle⟩

/-! ### The end of a job -/

/-- A job ends and its lane leaves LOADING. -/
theorem State.Coherent.release {s t : State} (h : s.Coherent) {i : Slot} {j : JobNo} (held : s.TargetedBy i j)
    (master : t.master = s.master) (store : t.store = s.store) (sane : (t.lane i).Sane)
    (left : (t.lane i).state ≠ .loading ∧ (t.lane i).state ≠ .identifying) (others : ∀ k, k ≠ i → t.lane k = s.lane k)
    (targets : ∀ k n, t.TargetedBy k n ↔ s.TargetedBy k n ∧ n ≠ j) (grant : ∀ g ∈ t.grant, g ∈ s.grant ∧ g.job ≠ j) :
    t.Coherent := by
  have loading : (s.lane i).state = .loading := (h.jobs.loading_iff i).2 ⟨j, held⟩
  have elsewhere : ∀ {k n}, s.TargetedBy k n → n ≠ j → k ≠ i := by
    rintro k n target other rfl
    exact other (h.jobs.one_job _ _ _ target held)
  have lanes : ∀ k, (t.lane k).Sane := fun k => by
    by_cases e : k = i
    · rw [e]; exact sane
    · rw [others k e]; exact h.lanes k
  refine ⟨lanes, h.fifo.of_same master fun k => ?_, ⟨fun k => ?_, fun k a b ha hb => ?_, fun g hg => ?_, fun k b out n client => ?_⟩,
    fun phase => ?_⟩
  · by_cases e : k = i
    · subst e
      simp [left.2, loading]
    · rw [others k e]
  · by_cases e : k = i
    · subst e
      refine iff_of_false left.1 ?_
      rintro ⟨n, target⟩
      obtain ⟨target, other⟩ := (targets _ n).1 target
      exact elsewhere target other rfl
    · rw [others k e, h.jobs.loading_iff]
      refine exists_congr fun n => ⟨fun target => (targets k n).2 ⟨target, ?_⟩, fun target => ((targets k n).1 target).1⟩
      rintro rfl
      exact e (target.slot_eq held)
  · exact h.jobs.one_job k a b ((targets k a).1 ha).1 ((targets k b).1 hb).1
  · obtain ⟨hg, other⟩ := grant g hg
    obtain ⟨k, target, released⟩ := h.jobs.granted g hg
    exact ⟨k, (targets k _).2 ⟨target, other⟩, by rw [others k (elsewhere target other)]; exact released⟩
  · by_cases e : k = i
    · subst e
      exact absurd (sane.loading_of_job out client) left.1
    · rw [others k e] at out
      have target := h.jobs.bursts k b out n client
      refine (targets k n).2 ⟨target, ?_⟩
      rintro rfl
      exact e (target.slot_eq held)
  · rw [store, h.initialized_of_targeted held] at phase
    exact absurd rfl phase

/-- An entry that has become terminal targets no slot any more, and the others target theirs. -/
theorem State.targetedBy_of_ended {s t : State} {j : JobNo} {last : Job} (terminal : last.state.working = false)
    (jobs : t.jobs = s.jobs.set j (some last)) (k : Slot) (n : JobNo) : t.TargetedBy k n ↔ s.TargetedBy k n ∧ n ≠ j := by
  have job : t.job n = (s.setJob j (some last)).job n := congrArg (fun v : Vector (Option Job) 4 => v[n]) jobs
  unfold State.TargetedBy
  rw [job]
  by_cases e : n = j
  · subst e
    simp [terminal]
  · simp [State.job_setJob_of_ne s _ e, e]

/-- A grant that a job's end leaves is of another job. -/
theorem State.mem_grant_of_ended {s : State} {j : JobNo} {g : Grant}
    (hg : g ∈ (if s.granted j then none else s.grant)) : g ∈ s.grant ∧ g.job ≠ j := by
  split at hg
  · cases hg
  · next other =>
    refine ⟨hg, fun e => other ?_⟩
    rw [State.granted, show s.grant = some g from hg]
    simpa using e

/-- What its job's end makes of a LOADING lane: READY, or LIVE when the job has completed with nothing outstanding. -/
theorem Lane.Sane.jobEnded {l : Lane} (h : l.Sane) (loading : l.state = .loading) {outcome : JobState}
    (idle : outcome = .completed → l.tx.outstanding = none) (interval : Nat) :
    (l.jobEnded outcome interval).Sane ∧ (l.jobEnded outcome interval).state ≠ .loading ∧
      (l.jobEnded outcome interval).state ≠ .identifying := by
  by_cases completed : outcome = .completed
  · subst completed
    rw [Lane.jobEnded_live loading]
    have known : l.facts.isSome = true := by simpa [Lane.FactsFit, loading] using h.facts
    exact ⟨Lane.sane_of_released (idle rfl) (h.seated (by simp [loading]) (by simp [loading])) known, by simp, by simp⟩
  · rw [Lane.jobEnded_loading loading completed]
    exact ⟨h.readied (.inr (.inl loading)) _, by simp [Lane.moved], by simp [Lane.moved]⟩

/-- A job whose entry may just have changed ends (06, R142). -/
theorem State.Coherent.endJob {s : State} (h : s.Coherent) {j : JobNo} {job last : Job} (hj : s.job j = some job)
    (working : job.state.working = true) (slot : last.slot = job.slot) {outcome : JobState}
    (terminal : outcome.working = false) (idle : outcome = .completed → (s.lane job.slot).tx.outstanding = none) :
    ((s.setJob j (some last)).endJob j outcome).Coherent := by
  rw [← slot] at idle
  have held : s.TargetedBy last.slot j := ⟨job, hj, working, slot.symm⟩
  have loading := (h.jobs.loading_iff last.slot).2 ⟨j, held⟩
  obtain ⟨sane, left⟩ := (h.lanes last.slot).jobEnded loading idle s.settings.interval
  rw [State.endJob_eq (State.job_setJob_self s j _)]
  refine h.release held rfl rfl ?sane ?left (fun k other => ?others)
    (State.targetedBy_of_ended (last := last.ended outcome) terminal ?jobs)
    fun g hg => State.mem_grant_of_ended hg
  case sane => exact (State.lane_setLane_self s last.slot _).symm ▸ sane
  case left => exact (State.lane_setLane_self s last.slot _).symm ▸ left
  case others => exact State.lane_setLane_of_ne s _ other
  case jobs => simp [State.setJob]

/-- The job of a LOADING lane that has lost its board or its link fails (06, R140 and R141). -/
theorem State.Coherent.loses {s : State} (h : s.Coherent) {i : Slot} {l : Lane} (loading : (s.lane i).state = .loading)
    (sane : l.Sane) (left : l.state ≠ .loading ∧ l.state ≠ .identifying) (cause : JobCause) :
    ((s.setLane i l).failJobOn i cause).Coherent := by
  obtain ⟨j, held⟩ := (h.jobs.loading_iff i).1 loading
  obtain ⟨job, hj, _, _⟩ := id held
  have out : ((s.setLane i l).lane i).state ≠ .loading := by rw [State.lane_setLane_self]; exact left.1
  rw [State.failJobOn_eq out held hj fun k target => h.jobs.one_job i k j target held, State.jobLost]
  refine State.Coherent.arbitrate (h.release held rfl rfl ?sane ?left (fun k other => ?others)
    (State.targetedBy_of_ended (last := job.ended (.failed cause)) rfl rfl) fun g hg => State.mem_grant_of_ended (s := s) hg)
  case sane => exact (State.lane_setLane_self s i l).symm ▸ sane
  case left => exact (State.lane_setLane_self s i l).symm ▸ left
  case others => exact State.lane_setLane_of_ne s l other

/-- What an event of a job makes of a coherent part. -/
theorem State.JobMoves.coherent {s t : State} {j : JobNo} {job : Job} {q : Prop} (m : State.JobMoves s j job q t)
    (h : s.Coherent) (hj : s.job j = some job) (working : job.state.working = true)
    (idle : q → (s.lane job.slot).tx.outstanding = none) : t.Coherent := by
  cases m with
  | same => exact h
  | keeps after slot _ working' => exact h.setJob hj slot (working'.trans working.symm)
  | ends last outcome slot terminal hq => exact h.endJob hj working slot terminal fun _ => idle hq

/-! ### Lanes that join or leave the FIFO -/

@[simp] theorem IdMaster.append_fifo (m : IdMaster) (i : Slot) : (m.append i).fifo = m.fifo ++ [i] := by
  unfold IdMaster.append
  split
  · next empty => rw [empty]; rfl
  · rfl

@[simp] theorem IdMaster.remove_fifo (m : IdMaster) (i : Slot) : (m.remove i).fifo = m.fifo.erase i := by
  unfold IdMaster.remove
  split
  · next empty => simp [empty]
  · next head rest e =>
    rw [e]
    split
    · next same => simp [same, IdMaster.serve]
    · next other => simp [other]

/-- A slot joins the FIFO. -/
theorem State.FifoAgrees.append {s : State} (h : s.FifoAgrees) {i : Slot} (outside : (s.lane i).state ≠ .identifying)
    {l : Lane} (identifying : l.state = .identifying) :
    ({ s.setLane i l with master := s.master.append i } : State).FifoAgrees where
  fifo_iff k := by
    change k ∈ (s.master.append i).fifo ↔ ((s.setLane i l).lane k).state = .identifying
    rw [IdMaster.append_fifo, List.mem_append, h.fifo_iff, State.lane_setLane]
    by_cases e : k = i <;> simp [e, identifying]
  once := by
    change (s.master.append i).fifo.Nodup
    rw [IdMaster.append_fifo]
    refine h.once.append (by simp) fun k hk new => outside ?_
    rw [← List.mem_singleton.1 new]
    exact (h.fifo_iff k).1 hk
  idle := by
    change (s.master.append i).phase = .idle ↔ (s.master.append i).fifo = []
    rw [IdMaster.append_fifo, IdMaster.append_eq, IdMaster.appended]
    split
    · simp
    · next busy => simpa [busy] using h.idle
  attempts := by
    change (s.master.append i).nacks ≤ 2 ∧ (s.master.append i).losses ≤ 7
    rw [IdMaster.append_eq, IdMaster.appended]
    split
    · simp
    · exact h.attempts

/-- A slot leaves the FIFO. -/
theorem State.FifoAgrees.remove {s : State} (h : s.FifoAgrees) {i : Slot} {l : Lane} (left : l.state ≠ .identifying)
    {m : IdMaster} (fifo : m.fifo = (s.master.remove i).fifo) (phase : m.phase = (s.master.remove i).phase)
    (nacks : m.nacks = (s.master.remove i).nacks) (losses : m.losses = (s.master.remove i).losses) :
    ({ s.setLane i l with master := m } : State).FifoAgrees where
  fifo_iff k := by
    change k ∈ m.fifo ↔ ((s.setLane i l).lane k).state = .identifying
    rw [fifo, IdMaster.remove_fifo, h.once.mem_erase_iff, h.fifo_iff, State.lane_setLane]
    by_cases e : k = i <;> simp [e, left]
  once := by
    change m.fifo.Nodup
    rw [fifo, IdMaster.remove_fifo]
    exact h.once.erase i
  idle := by
    change m.phase = .idle ↔ m.fifo = []
    rw [fifo, phase]
    unfold IdMaster.remove
    split
    · exact h.idle
    · next head rest e =>
      split
      · simp [IdMaster.serve]
      · simpa [e] using h.idle
  attempts := by
    change m.nacks ≤ 2 ∧ m.losses ≤ 7
    rw [nacks, losses]
    unfold IdMaster.remove
    split
    · exact h.attempts
    · split
      · simp [IdMaster.serve]
      · exact h.attempts

/-- A lane joins or leaves the FIFO: no job and no LIVE lane comes of it. -/
theorem State.Coherent.setLane_master {s : State} (h : s.Coherent) {i : Slot} {l : Lane} {m : IdMaster} (sane : l.Sane)
    (source : (s.lane i).state ≠ .loading) (target : l.state ≠ .loading ∧ l.state ≠ .live)
    (fifo : ({ s.setLane i l with master := m } : State).FifoAgrees) :
    ({ s.setLane i l with master := m } : State).Coherent := by
  have lane : ∀ k, ({ s.setLane i l with master := m } : State).lane k = if k = i then l else s.lane k :=
    fun k => s.lane_setLane i k l
  have lanes : ∀ k, (({ s.setLane i l with master := m } : State).lane k).Sane := fun k => by
    rw [lane]
    split
    · exact sane
    · exact h.lanes k
  refine ⟨lanes, fifo, h.jobs.of_same lanes (fun _ _ => Iff.rfl) (fun k => ?_) (fun k b out j client => ?_)
    (fun g hg => ⟨g, hg, rfl⟩), fun phase => ⟨(h.store phase).1, fun k => ?_⟩⟩
  · rw [lane]
    split
    · next e => subst e; exact iff_of_false target.1 source
    · rfl
  · rw [lane] at out
    split at out
    · exact absurd (sane.loading_of_job out client) target.1
    · exact ⟨b, out, client⟩
  · rw [lane]
    split
    · exact target.2
    · exact (h.store phase).2 k

/-- The slot of an attempt in progress is that of an IDENTIFYING lane. -/
theorem State.FifoAgrees.attempting {s : State} (h : s.FifoAgrees) {i : Slot} (attempt : s.master.attempting = some i) :
    (s.lane i).state = .identifying :=
  (h.fifo_iff i).1 (List.mem_of_mem_head? ((s.master.attempting_iff i).1 attempt).2)

/-- What an identification makes of its lane (03, R64): TRAINING with its facts, or FAULTED. -/
theorem Lane.Sane.identificationEnds {l : Lane} (h : l.Sane) (identifying : l.state = .identifying)
    {after : Lane} (e : after = l.fault .idUnreadable ∨ ∃ d, after = l.identified d) :
    after.Sane ∧ (after.state = .faulted ∨ after.state = .training) := by
  have faulted : ∀ cause, (l.fault cause).Sane ∧ ((l.fault cause).state = .faulted ∨ (l.fault cause).state = .training) :=
    fun cause => ⟨h.faulted (by simp [identifying]) (by simp [identifying]) cause, .inl rfl⟩
  rcases e with rfl | ⟨d, rfl⟩
  · exact faulted _
  · unfold Lane.identified
    split
    · next facts _ =>
      have released : l.tx.outstanding = none := h.released (by simp [identifying])
      have begun : ({ l.goto .training with facts := some facts, attempt := 1 } : Lane).Sane :=
        Lane.sane_of_released released (h.seated (by simp [identifying]) (by simp [identifying])) rfl
      rw [Lane.train, Lane.beginAlign_eq]
      exact ⟨(begun.turned_aligning rfl 1).sane, .inr rfl⟩
    · exact faulted _

/-! ### The start of a job and its bursts -/

/-- What a COPY_START that is accepted has met (06, R120). -/
theorem State.copyVerdict_ok {s : State} {m : List Byte} {i : Slot} {facts : BoardFacts} {policy : Policy} {j : JobNo}
    (h : s.copyVerdict m = .ok (i, facts, policy, j)) :
    s.store.phase = .initialized ∧ (s.lane i).state = .ready ∧ (s.lane i).facts = some facts ∧ s.job j = none := by
  unfold State.copyVerdict at h
  split at h
  · split at h
    · cases h
    · next phase =>
      split at h
      · next ready known =>
        split at h
        · cases h
        · split at h
          · next free =>
            cases h
            exact ⟨Decidable.not_not.1 phase, ready, known, by simpa using List.find?_some free⟩
          · cases h
      · cases h
  · cases h

/-- A job starts on a READY lane (06, R122). -/
theorem State.Coherent.startJob {s : State} (h : s.Coherent) {i : Slot} {j : JobNo} (initialized : s.store.phase = .initialized)
    (ready : (s.lane i).state = .ready) (free : s.job j = none) (facts : BoardFacts) (policy : Policy) :
    (s.startJob i facts policy j).Coherent := by
  have released : (s.lane i).tx.outstanding = none := (h.lanes i).released (by simp [ready])
  have known : (s.lane i).facts.isSome = true := by simpa [Lane.FactsFit, ready] using (h.lanes i).facts
  have seated := (h.lanes i).seated (by simp [ready]) (by simp [ready])
  have untargeted : ∀ n, ¬ s.TargetedBy i n := fun n target => by
    have := (h.jobs.loading_iff i).2 ⟨n, target⟩
    rw [ready] at this
    cases this
  unfold State.startJob
  generalize loaded : ({ (s.lane i).goto .loading with cause := none } : Lane) = l
  have sane : l.Sane := loaded ▸ Lane.sane_of_released released seated known
  have loading : l.state = .loading := loaded ▸ rfl
  have nothing : l.tx.outstanding = none := loaded ▸ released
  have lane : ∀ k, ((s.setJob j (some (Job.accepted i facts.profile policy))).setLane i l).lane k =
      if k = i then l else s.lane k := fun k => State.lane_setLane _ i k l
  have targets : ∀ k n, ((s.setJob j (some (Job.accepted i facts.profile policy))).setLane i l).TargetedBy k n ↔
      s.TargetedBy k n ∨ (k = i ∧ n = j) := fun k n => by
    unfold State.TargetedBy
    rw [State.setLane_job, State.job_setJob]
    by_cases e : n = j
    · rw [if_pos e, e, free]
      exact ⟨fun ⟨_, new, _, slot⟩ => .inr ⟨by rw [← slot, ← Option.some.inj new]; rfl, rfl⟩,
        fun target => target.elim (fun ⟨_, absent, _⟩ => nomatch absent) fun ⟨slot, _⟩ => ⟨_, rfl, rfl, slot.symm⟩⟩
    · simp [e]
  refine State.Coherent.arbitrate ⟨fun k => ?_, h.fifo.of_same rfl fun k => ?_,
    ⟨fun k => ?_, fun k a b ha hb => ?_, fun g hg => ?_, fun k b out n client => ?_⟩, fun phase => absurd initialized phase⟩
  · rw [lane]
    split
    · exact sane
    · exact h.lanes k
  · rw [lane]
    split
    · next e => simp [e, ready, loading]
    · rfl
  · simp only [lane, targets]
    by_cases e : k = i
    · simp [e, loading]
    · simp [e, h.jobs.loading_iff]
  · rw [targets] at ha hb
    rcases ha with ha | ⟨rfl, rfl⟩ <;> rcases hb with hb | ⟨e, rfl⟩
    · exact h.jobs.one_job k a b ha hb
    · exact absurd ha (e ▸ untargeted a)
    · exact absurd hb (untargeted b)
    · rfl
  · obtain ⟨k, target, clear⟩ := h.jobs.granted g hg
    refine ⟨k, (targets k _).2 (.inl target), ?_⟩
    rw [lane]
    split
    · exact nothing
    · exact clear
  · rw [lane] at out
    split at out
    · rw [nothing] at out; cases out
    · exact (targets k n).2 (.inl (h.jobs.bursts k b out n client))

/-- A grant's frames are handed over to the transmitter of the job's lane (04, R82; 06, R124). -/
theorem State.Coherent.handOver {s : State} (h : s.Coherent) (free : s.grant = none) {g : Grant} {job : Job}
    (hj : s.job g.job = some job) (working : job.state.working = true) : (s.handOver g job).Coherent := by
  have target : s.TargetedBy job.slot g.job := ⟨job, hj, working, rfl⟩
  have loading := (h.jobs.loading_iff job.slot).2 ⟨_, target⟩
  simp only [State.handOver]
  generalize taken : ({ s.lane job.slot with tx := (s.lane job.slot).tx.take g.frames (.job g.job) none } : Lane) = l
  have state : l.state = .loading := taken ▸ loading
  have burst : ∀ b ∈ l.tx.outstanding, b.client = .job g.job := by
    rw [← taken]
    intro b out
    rw [← Option.some.inj out]
  have sane : l.Sane := by
    refine ⟨taken ▸ (h.lanes job.slot).seating, taken ▸ (h.lanes job.slot).facts, ?_, fun b out => ?_⟩
    · rw [← taken]; simp [Transmitter.take]
    · rw [state, burst b out]; rfl
  have lane : ∀ k, (s.setLane job.slot l).lane k = if k = job.slot then l else s.lane k := fun k => State.lane_setLane ..
  refine ⟨fun k => ?_, h.fifo.of_same rfl fun k => ?_, ⟨fun k => ?_, h.jobs.one_job, fun g hg => ?_, fun k b out n client => ?_⟩,
    fun phase => absurd (h.initialized_of_targeted target) phase⟩
  · rw [lane]
    split
    · exact sane
    · exact h.lanes k
  · rw [lane]
    split
    · next e => simp [e, state, loading]
    · rfl
  · rw [lane]
    split
    · next e => rw [e, state]; exact iff_of_true rfl ⟨_, target⟩
    · exact h.jobs.loading_iff k
  · rw [State.setLane_grant, free] at hg
    cases hg
  · rw [lane] at out
    split at out
    · next e =>
      rw [burst b out] at client
      obtain rfl := Client.job.inj client
      exact e ▸ target
    · exact h.jobs.bursts k b out n client

/-! ### The copy engine's events -/

/-- The grant in progress with its job. -/
theorem State.grantJob_some {s : State} {g : Grant} {job : Job} (h : s.grantJob = some (g, job)) :
    s.grant = some g ∧ s.job g.job = some job := by
  unfold State.grantJob at h
  split at h
  · next g' e =>
    obtain ⟨job', hj, pair⟩ := Option.map_eq_some_iff.1 h
    cases pair
    exact ⟨e, hj⟩
  · cases h

/-- A read of a grant: its job's entry and its frames change. -/
theorem State.Coherent.readsRow {s : State} (h : s.Coherent) {g after : Grant} {job last : Job} (hg : s.grant = some g)
    (hj : s.job g.job = some job) (slot : last.slot = job.slot) (working : last.state.working = job.state.working)
    (same : after.job = g.job) : ({ s.setJob g.job (some last) with grant := some after } : State).Coherent := by
  have changed := h.setJob hj slot working
  refine changed.regrant ⟨rfl, rfl, rfl, rfl, rfl, rfl⟩ fun x hx => ?_
  obtain rfl := Option.some.inj hx
  rw [same]
  exact changed.jobs.granted g hg

theorem State.Coherent.examineRow {s : State} (h : s.Coherent) : s.examineRow.Coherent := by
  unfold State.examineRow
  split
  · next g job e =>
    obtain ⟨hg, hj⟩ := State.grantJob_some e
    split
    · exact h.readsRow hg hj (last := job.examined s.store) rfl rfl rfl
    · exact h
  · exact h

theorem State.Coherent.takeRow {s : State} (h : s.Coherent) : s.takeRow.Coherent := by
  unfold State.takeRow
  split
  · next g job e =>
    obtain ⟨hg, hj⟩ := State.grantJob_some e
    split
    · exact h.readsRow hg hj rfl rfl rfl
    · exact h
  · exact h

theorem State.Coherent.completeGrant {s : State} (h : s.Coherent) : s.completeGrant.Coherent := by
  unfold State.completeGrant
  split
  · next g job e =>
    obtain ⟨hg, hj⟩ := State.grantJob_some e
    have working := h.working_of_grant hg hj
    have free : ({ s with grant := none } : State).Coherent :=
      h.regrant ⟨rfl, rfl, rfl, rfl, rfl, rfl⟩ (by simp)
    split
    · refine State.Coherent.arbitrate ?_
      split
      · exact (State.endOfWork_moves (s := { s with grant := none }) hj).coherent free hj working And.right
      · exact free.handOver rfl hj working
    · exact h
  · exact h

/-- A grant that takes no further row. -/
theorem State.Coherent.closeGrant {s : State} (h : s.Coherent) (j : JobNo) : (s.closeGrant j).Coherent := by
  unfold State.closeGrant
  split
  · next g hg =>
    split
    · refine h.regrant ⟨rfl, rfl, rfl, rfl, rfl, rfl⟩ fun x hx => ?_
      obtain rfl := Option.some.inj hx
      exact h.jobs.granted g hg
    · exact h
  · exact h

@[simp] theorem State.closeGrant_job (s : State) (j k : JobNo) : (s.closeGrant j).job k = s.job k := by
  unfold State.closeGrant
  split
  · split <;> rfl
  · rfl

theorem State.Coherent.freezeExpired {s : State} (h : s.Coherent) (j : JobNo) : (s.freezeExpired j).Coherent := by
  unfold State.freezeExpired
  split
  · next job hj =>
    split
    · next due =>
      have working : job.state.working = true := by
        revert due
        cases job.state <;> simp [JobState.frozen, JobState.working]
      split
      · have thawed : (s.setJob j (some job.thaw)).Coherent := h.setJob hj rfl (by rw [working]; rfl)
        have hj' : ((s.setJob j (some job.thaw)).closeGrant j).job j = some job.thaw := by simp
        exact ((State.endOfWork_moves hj').coherent (thawed.closeGrant j) hj' rfl And.right).arbitrate
      · exact (h.endJob (last := { job with freezeAttempts := job.freezeAttempts + 1 })
          (outcome := .failed .freezeExhausted) hj working rfl rfl (by simp)).arbitrate
    · exact h
  · exact h

theorem State.Coherent.sampleExpired {s : State} (h : s.Coherent) (j : JobNo) : (s.sampleExpired j).Coherent := by
  unfold State.sampleExpired
  split
  · next job hj =>
    split
    · exact h.setJob hj rfl rfl
    · exact h
  · exact h

/-- A job's burst is retired and reported (04, R92; 06, R139). -/
theorem State.Coherent.retireJob {s : State} (h : s.Coherent) {i : Slot} {b : Burst} {j : JobNo}
    (awaited : (s.lane i).tx.awaited = some b) (client : b.client = .job j) (digest : Option Word32) :
    ((s.setLane i { s.lane i with tx := (s.lane i).tx.release }).reportRetired j b.frames digest).arbitrate.Coherent := by
  obtain ⟨job, hj, working, rfl⟩ := h.jobs.bursts i b (Transmitter.awaited_outstanding awaited) j client
  have released := h.turn ((h.lanes job.slot).turned_released (.refl _))
  have nothing : ((s.setLane job.slot { s.lane job.slot with tx := (s.lane job.slot).tx.release }).lane
      job.slot).tx.outstanding = none := by
    rw [State.lane_setLane_self]
    rfl
  have reported := State.reportRetired_moves (s := s.setLane job.slot _) hj working nothing b.frames digest
  exact (reported.coherent released hj working id).arbitrate

/-- A notice of a job is placed (06, R145): a terminal entry is freed. -/
theorem State.Coherent.noticed {s : State} (h : s.Coherent) {j : JobNo} {job : Job} (hj : s.job j = some job) :
    (s.setJob j job.noticed).Coherent := by
  unfold Job.noticed
  split
  · exact h.setJob hj rfl rfl
  · next terminal =>
    refine h.of_fronts rfl (fun i => .refl _) (fun i k => ?_) (fun k free => ?_) rfl id
    · unfold State.TargetedBy
      by_cases e : k = j
      · subst e
        simp [hj, terminal]
      · rw [State.job_setJob_of_ne s _ e]
    · rw [State.job_setJob]
      split
      · rfl
      · exact free

/-! ### Changes of every lane and every job -/

/-- Every job entry changes and keeps its slot and whether it is terminal. -/
theorem State.targetedBy_mapJobs {s : State} {f : Job → Job} (slot : ∀ job, (f job).slot = job.slot)
    (state : ∀ job, (f job).state = job.state) (i : Slot) (j : JobNo) : (s.mapJobs f).TargetedBy i j ↔ s.TargetedBy i j := by
  unfold State.TargetedBy
  rw [State.job_mapJobs]
  cases s.job j <;> simp [slot, state]

theorem Job.addArrival_keeps (j : Job) (row : Nat) : (j.addArrival row).slot = j.slot ∧ (j.addArrival row).state = j.state := by
  unfold Job.addArrival
  split <;> exact ⟨rfl, rfl⟩

theorem Job.offer_keeps (k : Kind) (row : Nat) (j : Job) : (Job.offer k row j).slot = j.slot ∧ (Job.offer k row j).state = j.state := by
  rw [Job.offer_eq, Job.offered]
  split <;> exact ⟨rfl, rfl⟩

/-- An admitted change (02, R32). -/
theorem State.Coherent.applyChange {s : State} (h : s.Coherent) {store : Store} (phase : store.phase = s.store.phase) (k : Kind)
    (row : Nat) (entry : Profile → Option ApplyEntry) : (s.applyChange store k row entry).Coherent := by
  refine State.Coherent.arbitrate (h.of_fronts rfl (fun i => ?_) (fun i j => ?_) (fun j free => ?_) rfl ?_)
  · rw [State.mapJobs_lane, State.lane_mapLanes]
    exact Lane.feed_front ..
  · exact State.targetedBy_mapJobs (fun job => (Job.offer_keeps k row job).1) (fun job => (Job.offer_keeps k row job).2) i j
  · have free' : (({ s with store } : State).mapLanes (Lane.feed s.settings k entry)).job j = none := free
    rw [State.job_mapJobs, free']
    rfl
  · exact fun held => phase ▸ held

/-- A reset (08, R188). -/
theorem State.reset_coherent : State.reset.Coherent := State.reset_blocksAgree.coherent State.reset_linksSound

theorem State.resetBlocks_coherent (s : State) (store : Store) (settings : Settings) :
    ({ s.resetBlocks store with settings } : State).Coherent :=
  have blocks : ({ State.reset with store, settings } : State).Coherent :=
    State.reset_coherent.of_fronts rfl (fun _ => .refl _) (fun _ _ => Iff.rfl) (fun _ => id) rfl fun _ => by decide
  blocks.of_same ⟨rfl, rfl, rfl, rfl, rfl, rfl⟩

/-! ### Every command and every step -/

/-- Each move of the blocks keeps them coherent. -/
theorem State.Moves.coherent {c : Instr} {s t : State} (m : State.Moves c s t) (h : s.Coherent) : t.Coherent := by
  cases m with
  | same => exact h
  | reset store settings => exact s.resetBlocks_coherent store settings
  | begins requested phase =>
    exact h.of_fronts rfl (fun _ => .refl _) (fun _ _ => Iff.rfl) (fun _ => id) rfl fun _ => by rw [phase]; decide
  | completes => exact h.of_fronts rfl (fun _ => .refl _) (fun _ _ => Iff.rfl) (fun _ => id) rfl fun held => absurd rfl held
  | inserts => exact h.applyChange (by simp) ..
  | updates => exact h.applyChange (by simp) ..
  | retires => exact h.applyChange (by simp) ..
  | setting => exact h.of_fronts rfl (fun _ => .refl _) (fun _ _ => Iff.rfl) (fun _ => id) rfl id
  | setAudit interval =>
    refine h.of_fronts rfl (fun i => ?_) (fun _ _ => Iff.rfl) (fun _ => id) rfl id
    rw [State.lane_mapLanes]
    exact Lane.restartAudit_front ..
  | turn i l event => exact h.turn (event.turned (h.lanes i))
  | identifies i present outside loaded view =>
    have seated : present = true ∧ true = true := by
      refine ⟨?_, rfl⟩
      rcases view with e | ⟨extracting, e⟩
      · exact e
      · have := (h.lanes i).seating
        simp only [Lane.SeatingFits, extracting] at this
        exact e.trans this.1
    simp only [State.identify, State.lane_setLane_self, State.setLane_setLane, State.setLane_master]
    exact h.setLane_master ((h.lanes i).identified seated) loaded (by simp [Lane.identify, Lane.goto])
      (h.fifo.append outside rfl)
  | unidentifies i l identifying departure =>
    have seated := (h.lanes i).seated (by simp [identifying]) (by simp [identifying])
    have gone : l.Sane ∧ (l.state = .empty ∨ l.state = .extracting) := by
      rcases departure with rfl | ⟨rfl, _⟩
      · exact ⟨(h.lanes i).vacated (by simp) _, .inl rfl⟩
      · exact ⟨(h.lanes i).extracted seated.1, .inr rfl⟩
    refine h.setLane_master gone.1 (by simp [identifying]) ?_ (h.fifo.remove ?_ rfl rfl rfl rfl)
    all_goals rcases gone.2 with e | e <;> simp [e]
  | identified i l attempt ending =>
    have identifying := h.fifo.attempting attempt
    obtain ⟨sane, target⟩ := (h.lanes i).identificationEnds identifying ending
    refine h.setLane_master sane (by simp [identifying]) ?_ (h.fifo.remove ?_ rfl rfl rfl rfl)
    all_goals rcases target with e | e <;> simp [e]
  | masters m fifo phase nacks losses =>
    refine ⟨h.lanes, ⟨fun i => ?_, ?_, ?_, ?_⟩, ⟨h.jobs.loading_iff, h.jobs.one_job, h.jobs.granted, h.jobs.bursts⟩, h.store⟩
    · exact fifo ▸ h.fifo.fifo_iff i
    · exact fifo ▸ h.fifo.once
    · exact phase.trans (fifo ▸ h.fifo.idle)
    · have := h.fifo.attempts
      simp only []
      omega
  | loses i l cause loading departure =>
    have seated := (h.lanes i).seated (by simp [loading]) (by simp [loading])
    have gone : l.Sane ∧ l.state ≠ .loading ∧ l.state ≠ .identifying := by
      rcases departure with rfl | ⟨rfl, _⟩ | rfl
      · exact ⟨(h.lanes i).vacated (by simp) _, by simp [Lane.vacate, Lane.goto], by simp [Lane.vacate, Lane.goto]⟩
      · exact ⟨(h.lanes i).extracted seated.1, by simp [Lane.extract, Lane.goto], by simp [Lane.extract, Lane.goto]⟩
      · exact ⟨(h.lanes i).faulted (by simp [loading]) (by simp [loading]) _, by simp [Lane.fault, Lane.goto],
          by simp [Lane.fault, Lane.goto]⟩
    exact h.loses loading gone.1 gone.2 cause
  | starts m i facts policy j verdict =>
    obtain ⟨initialized, ready, _, free⟩ := State.copyVerdict_ok verdict
    exact h.startJob initialized ready free facts policy
  | aborts i j found =>
    obtain ⟨job, hj, working, _⟩ := State.jobOn_targets found
    have same : s.setJob j (some job) = s := State.setJob_same hj
    have ended := h.endJob (last := job) (outcome := .aborted) hj working rfl rfl (by simp)
    rw [same] at ended
    exact ended.arbitrate
  | retireJob i b j digest awaited client => exact h.retireJob awaited client digest
  | examines => exact h.examineRow
  | takes => exact h.takeRow
  | grants => exact h.completeGrant
  | freezes j => exact h.freezeExpired j
  | samples j => exact h.sampleExpired j
  | noticed j job hj => exact h.noticed hj

/-- A microsecond of time touches timers alone. -/
theorem State.Coherent.tick {s : State} (h : s.Coherent) : s.tick.Coherent := by
  have phase : s.master.tick.phase = .idle ↔ s.master.phase = .idle := by
    unfold IdMaster.tick MasterPhase.tick
    cases s.master.phase <;> simp
  unfold State.tick
  split
  · exact h
  · have ticked : ({ s with master := s.master.tick } : State).Coherent :=
      (State.Moves.masters (c := .idWaitExpiry) s.master.tick rfl phase (.inl rfl) (.inl rfl)).coherent h
    refine ticked.of_turned rfl (fun i => ?_) (fun i j => ?_) (fun j free => ?_) (fun g hg => ⟨g, hg, rfl⟩) id
    · rw [State.mapJobs_lane, State.lane_mapLanes]
      exact (h.lanes i).turned_link _ ⟨rfl, rfl, rfl, rfl, rfl⟩ (h.lanes i).clear fun b out => .inl ⟨b, out, rfl⟩
    · exact State.targetedBy_mapJobs (f := Job.tick) (fun _ => rfl) (fun _ => rfl) i j
    · have free' : s.job j = none := free
      exact (State.job_mapJobs _ Job.tick j).trans (congrArg (Option.map Job.tick) free')

/-- Each command keeps the blocks coherent. -/
theorem State.Coherent.exec {c : Instr} {s t : State} (h : s.Coherent) (run : exec c s = .next t) : t.Coherent := by
  obtain ⟨a, b, before, move, after⟩ := exec_steps c run
  exact (move.coherent (h.of_same before)).of_same after

/-- Settles O56: sound transmitters make the agreement coherent, and each command, or a microsecond, keeps it so. -/
theorem step_keepsBlocksAgreeing : Obligations.Step_KeepsBlocksAgreeing := by
  intro s t sound agree run
  have h := agree.coherent sound
  unfold step at run
  split at run
  · injection run with run
    exact (run ▸ h.tick).blocksAgree
  · next c rest _ => exact ((h.of_same (t := { s with pending := rest }) ⟨rfl, rfl, rfl, rfl, rfl, rfl⟩).exec run).blocksAgree

end Sys2Proof.Machine
end

section
/-! SUPPORT. The requests about settings, lanes and the start and the end of a copy (03, R55 to R59; 05, R105; 06, R120 to R122 and
R143; 09, R190 to R193): what each reads from its message, and its answer. -/

namespace Sys2Proof.Machine

/-- A request command on an offered request answers as its decision does. -/
theorem State.Offers.decides {s : State} {code : Byte} {m : List Byte} {rest : List (List Byte)} (h : s.Offers code m rest)
    {c : Instr} (f : State → List Byte → State) (command : exec c s = .next (s.takeRequest (· == code) f)) {t : State}
    (decision : f { s with requests := rest } m = t) : exec c s = .next t := by
  rw [command, h.run f, decision]

/-! ### Operands -/

/-- A byte above 15 names no slot (08, R179). -/
theorem requestSlot_eq_none {m : List Byte} (h : 16 ≤ natAt m 8) : requestSlot m = none :=
  dif_neg (Nat.not_lt.2 h)

/-- A byte up to 15 names its slot (08, R179). -/
theorem requestSlot_eq_some {m : List Byte} {i : Slot} (h : natAt m 8 = i.val) : requestSlot m = some i := by
  have small : (byteAt m 8).toNat < 16 := h.trans_lt i.isLt
  rw [requestSlot, slotOf, dif_pos small]
  exact congrArg some (Fin.ext h)

/-- The action code 1 is READ (10, R200). -/
theorem readSettingsAction_read {m : List Byte} (h : byteAt m 8 = 1) : readSettingsAction m = some false := if_pos h

/-- The action code 2 is WRITE (10, R200). -/
theorem readSettingsAction_write {m : List Byte} (h : byteAt m 8 = 2) : readSettingsAction m = some true := by
  rw [readSettingsAction, h]
  rfl

/-- Every other action code is unknown (10, R200). -/
theorem readSettingsAction_unknown {m : List Byte} (read : byteAt m 8 ≠ 1) (write : byteAt m 8 ≠ 2) :
    readSettingsAction m = none :=
  (if_neg read).trans (if_neg write)

/-- The mode code of a mode names it (10, R200). -/
theorem readMode_of_code {m : List Byte} {mode : AlarmMode} (h : natAt m 11 = mode.code) :
    readMode (byteAt m 11) = some mode := by
  have named : byteAt m 11 = BitVec.ofNat 8 mode.code := by
    rw [← h, natAt, BitVec.ofNat_toNat, BitVec.setWidth_eq]
  rw [named]
  cases mode <;> rfl

/-- The adjusted flag of a settings response says that the value differs from the requested one (10, R200). -/
theorem bne_eq_decide_ne (a b : Nat) : (a != b) = decide (a ≠ b) := by
  by_cases h : a = b <;> simp [h]

/-- A value brought into a range, bound by bound. -/
theorem clamp_eq_ite {low high : Nat} (h : low ≤ high) (v : Nat) :
    clamp low high v = if v < low then low else if high < v then high else v := by
  unfold clamp
  split
  · omega
  · split <;> omega

/-! ### Settings (09) -/

/-- A lane whose audit timer has just been restarted or stopped has no expiry due (09, R193; log 2). -/
theorem Lane.restartAudit_auditTick (store : Store) (set : Settings) (interval : Nat) (l : Lane) :
    (l.restartAudit interval).auditTick store set = l.restartAudit interval := by
  unfold Lane.restartAudit
  by_cases live : l.state = .live
  · have running : auditTimerFor interval ≠ some 0 := by
      unfold auditTimerFor Config.auditUnit
      split
      · simp
      · next h => simpa using h
    simp [live, Lane.auditTick, Timer.ranOut, running]
  · simp [live, Lane.auditTick]

/-- An audit timer expiry that no lane has due changes nothing. -/
theorem execAuditTimerExpiry_of_notDue {s : State} {i : Slot}
    (h : (s.lane i).auditTick s.store s.settings = s.lane i) : exec (.auditTimerExpiry i) s = .next s := by
  change Host.Outcome.next (s.unlessReset fun s => s.setLane i ((s.lane i).auditTick s.store s.settings)) = _
  rw [State.unlessReset, h, State.setLane_lane, ite_self]

/-- Settles O15: each request by its action; a WRITE of SET_AUDIT restarts each LIVE lane's timer, so that none is due. -/
theorem settings_readAndWrite : Obligations.Settings_ReadAndWrite := by
  refine ⟨fun s m rest offered => ⟨fun read write => ?_, fun read => ?_, fun write => ?_⟩,
    fun s m rest offered => ⟨fun read write => ?_, fun write auto sticky => ?_, fun read => ?_, fun mode write code => ?_⟩,
    fun s m rest offered => ⟨fun read write => ?_, fun read => ?_, fun write => ⟨?_, fun i => ?_⟩⟩⟩
  · refine offered.decides State.decideSetScan rfl ?_
    simp only [State.decideSetScan, readSettingsAction_unknown read write]
    rfl
  · refine offered.decides State.decideSetScan rfl ?_
    simp only [State.decideSetScan, readSettingsAction_read read]
    rfl
  · refine offered.decides State.decideSetScan rfl ?_
    simp only [State.decideSetScan, readSettingsAction_write write, Scanner.clearCounters, mapVector_eq_map,
      bne_eq_decide_ne, roundDebounce]
    rfl
  · refine offered.decides State.decideSetLaneAlarm rfl ?_
    simp only [State.decideSetLaneAlarm, readSettingsAction_unknown read write]
    rfl
  · refine offered.decides State.decideSetLaneAlarm rfl ?_
    have unknown : readMode (byteAt m 11) = none := (if_neg auto).trans (if_neg sticky)
    simp only [State.decideSetLaneAlarm, readSettingsAction_write write, unknown]
    rfl
  · refine offered.decides State.decideSetLaneAlarm rfl ?_
    simp only [State.decideSetLaneAlarm, readSettingsAction_read read]
    rfl
  · refine offered.decides State.decideSetLaneAlarm rfl ?_
    simp only [State.decideSetLaneAlarm, readSettingsAction_write write, readMode_of_code code,
      clamp_eq_ite (show 16 ≤ 4096 by decide), bne_eq_decide_ne]
    rfl
  · refine offered.decides State.decideSetAudit rfl ?_
    simp only [State.decideSetAudit, readSettingsAction_unknown read write]
    rfl
  · refine offered.decides State.decideSetAudit rfl ?_
    simp only [State.decideSetAudit, readSettingsAction_read read]
    rfl
  · refine offered.decides State.decideSetAudit rfl ?_
    have limited : min 255 (fieldAt m 9 2) = if 255 < fieldAt m 9 2 then 255 else fieldAt m 9 2 := by
      split <;> omega
    simp only [State.decideSetAudit, readSettingsAction_write write, limited, bne_eq_decide_ne, State.mapLanes,
      mapVector_eq_map]
    rfl
  · refine execAuditTimerExpiry_of_notDue ?_
    have restarted : ∀ a : State, ∀ interval, a.lanes = s.lanes.map (Lane.restartAudit interval) →
        a.lane i = (s.lane i).restartAudit interval := fun a interval e => by
      simp [State.lane, e]
    rw [restarted _ (if 255 < fieldAt m 9 2 then 255 else fieldAt m 9 2) rfl]
    exact Lane.restartAudit_auditTick ..

/-! ### Lane requests (03, 05) -/

/-- A slot in the FIFO stands at its position, counted from 1 (10, R201). -/
theorem fifoPosition_spec {fifo : List Slot} {i : Slot} (h : i ∈ fifo) :
    fifo[fifoPosition fifo i - 1]? = some i ∧ 1 ≤ fifoPosition fifo i := by
  rw [fifoPosition, if_pos h]
  exact ⟨List.getElem?_idxOf h, Nat.le_add_left 1 _⟩

/-- Settles O13: the snapshot as it is taken, its position by the slot's index and its job by the lane being LOADING. -/
theorem laneStatus_snapshot : Obligations.LaneStatus_Snapshot := by
  intro s m rest offered
  refine ⟨fun above => offered.decides State.decideLaneStatus rfl ?_, fun i named agree => ?_⟩
  · simp only [State.decideLaneStatus, requestSlot_eq_none above]
    rfl
  · let snapshot := s.laneSnapshot i
    refine ⟨snapshot.fifoPosition, snapshot.nacks, snapshot.losses, snapshot.job,
      offered.decides State.decideLaneStatus rfl ?_, fun out => if_neg out, fifoPosition_spec,
      fun head => ⟨if_pos head, if_pos head⟩, fun behind => ⟨if_neg behind, if_neg behind⟩, fun other => if_neg other,
      fun loading => ?_⟩
    · simp only [State.decideLaneStatus, requestSlot_eq_some named]
      rfl
    · obtain ⟨j, target⟩ := (agree.loading_iff i).1 loading
      have found := State.jobOn_eq_some target fun k other => agree.one_job i k j other target
      exact ⟨j, (if_pos loading).trans found, target⟩

/-- LANE_RELEASE of a LIVE lane (03, R58). -/
theorem State.decideLaneRelease_live {s : State} {m : List Byte} {i : Slot} (named : natAt m 8 = i.val)
    (live : (s.lane i).state = .live) :
    s.decideLaneRelease m =
      (s.setLane i ((s.lane i).moved .ready (some .released))).respond m .ok (.laneState i .ready) := by
  simp only [State.decideLaneRelease, requestSlot_eq_some named, Lane.abandon_goto_eq]
  rw [if_pos live]

/-- LANE_RELEASE of any other lane (03, R58). -/
theorem State.decideLaneRelease_other {s : State} {m : List Byte} {i : Slot} (named : natAt m 8 = i.val)
    (other : (s.lane i).state ≠ .live) : s.decideLaneRelease m = s.refuse m .wrongState := by
  simp only [State.decideLaneRelease, requestSlot_eq_some named, other, if_false]

/-- LANE_CLEAR_ALARM of a LIVE lane (05, R105). -/
theorem State.decideLaneClearAlarm_live {s : State} {m : List Byte} {i : Slot} (named : natAt m 8 = i.val)
    (live : (s.lane i).state = .live) :
    s.decideLaneClearAlarm m =
      (s.setLane i { s.lane i with live := { (s.lane i).live with alarm := false, watermark := (s.lane i).live.depth } }).respond
        m .ok (.laneDepth i (s.lane i).live.depth (s.lane i).live.depth) := by
  simp only [State.decideLaneClearAlarm, requestSlot_eq_some named]
  rw [if_pos live]

/-- LANE_CLEAR_ALARM of any other lane (05, R105). -/
theorem State.decideLaneClearAlarm_other {s : State} {m : List Byte} {i : Slot} (named : natAt m 8 = i.val)
    (other : (s.lane i).state ≠ .live) : s.decideLaneClearAlarm m = s.refuse m .wrongState := by
  simp only [State.decideLaneClearAlarm, requestSlot_eq_some named, other, if_false]

/-- The lane states that LANE_RESET accepts (03, R57). -/
theorem LaneState.resettable_iff (x : LaneState) : x.resettable = true ↔ x = .faulted ∨ x = .ready ∨ x = .live := by
  cases x <;> simp [LaneState.resettable]

/-- LANE_RESET of a lane in another state (03, R57). -/
theorem State.decideLaneReset_refused {s : State} {m : List Byte} {i : Slot} (named : natAt m 8 = i.val)
    (refused : ¬((s.lane i).state = .faulted ∨ (s.lane i).state = .ready ∨ (s.lane i).state = .live)) :
    s.decideLaneReset m = s.refuse m .wrongState := by
  rw [← LaneState.resettable_iff] at refused
  simp only [State.decideLaneReset, requestSlot_eq_some named, refused]
  rfl

/-- LANE_RESET that re-identifies a seated and closed board (03, R57). -/
theorem State.decideLaneReset_seated {s : State} {m : List Byte} {i : Slot} (named : natAt m 8 = i.val)
    (accepted : (s.lane i).state = .faulted ∨ (s.lane i).state = .ready ∨ (s.lane i).state = .live)
    (seated : (s.lane i).present = true ∧ (s.lane i).lever = true) :
    s.decideLaneReset m =
      ({ s.setLane i ((s.lane i).cleared .identifying none) with master := s.master.appended i } : State).respond m .ok
        (.laneState i .identifying) := by
  have reset : s.resetLane i = { s.setLane i ((s.lane i).cleared .identifying none) with master := s.master.appended i } := by
    rw [← Lane.identify_eq, ← IdMaster.append_eq]
    exact if_pos seated
  have state : ((s.resetLane i).lane i).state = .identifying := by
    rw [reset]
    exact congrArg Lane.state (State.lane_setLane_self s i _)
  rw [← LaneState.resettable_iff] at accepted
  simp only [State.decideLaneReset, requestSlot_eq_some named]
  rw [if_pos accepted, state, reset]

/-- LANE_RESET of a lane without a seated and closed board (03, R57). -/
theorem State.decideLaneReset_unseated {s : State} {m : List Byte} {i : Slot} (named : natAt m 8 = i.val)
    (accepted : (s.lane i).state = .faulted ∨ (s.lane i).state = .ready ∨ (s.lane i).state = .live)
    (unseated : ¬((s.lane i).present = true ∧ (s.lane i).lever = true)) :
    s.decideLaneReset m =
      (s.setLane i ((s.lane i).cleared .empty none)).respond m .ok (.laneState i .empty) := by
  have reset : s.resetLane i = s.setLane i ((s.lane i).cleared .empty none) := by
    rw [← Lane.vacate_eq]
    exact if_neg unseated
  have state : ((s.resetLane i).lane i).state = .empty := by
    rw [reset, State.lane_setLane_self]
    rfl
  rw [← LaneState.resettable_iff] at accepted
  simp only [State.decideLaneReset, requestSlot_eq_some named]
  rw [if_pos accepted, state, reset]

/-- Settles O37: each request by its slot, its lane's state and, for LANE_RESET, the lane's view of its board. -/
theorem laneRequests_moveLane : Obligations.LaneRequests_MoveLane := by
  refine ⟨fun s m rest => ⟨fun above => ⟨fun offered => ?_, fun offered => ?_⟩, fun i named =>
      ⟨fun other => ⟨fun offered => ?_, fun offered => ?_⟩, fun live => ⟨fun offered => ?_, fun offered => ?_⟩⟩⟩,
    fun s m rest offered => ⟨fun above => ?_, fun i named =>
      ⟨fun refused => ?_, fun accepted present lever => ?_, fun accepted unseated => ?_⟩⟩⟩
  · refine offered.decides State.decideLaneRelease rfl ?_
    simp only [State.decideLaneRelease, requestSlot_eq_none above]
    rfl
  · refine offered.decides State.decideLaneClearAlarm rfl ?_
    simp only [State.decideLaneClearAlarm, requestSlot_eq_none above]
    rfl
  · exact offered.decides _ rfl (State.decideLaneRelease_other named other)
  · exact offered.decides _ rfl (State.decideLaneClearAlarm_other named other)
  · exact offered.decides _ rfl (State.decideLaneRelease_live named live)
  · exact offered.decides _ rfl (State.decideLaneClearAlarm_live named live)
  · refine offered.decides State.decideLaneReset rfl ?_
    simp only [State.decideLaneReset, requestSlot_eq_none above]
    rfl
  · exact offered.decides _ rfl (State.decideLaneReset_refused named refused)
  · exact offered.decides _ rfl (State.decideLaneReset_seated named accepted ⟨present, lever⟩)
  · refine offered.decides _ rfl (State.decideLaneReset_unseated named accepted fun seated => ?_)
    rcases unseated with absent | opened
    · exact Bool.false_ne_true (absent.symm.trans seated.1)
    · exact Bool.false_ne_true (opened.symm.trans seated.2)

/-! ### The start and the end of a copy (06) -/

/-- The stall-action codes (10, R200). -/
theorem readStallAction_eq (b : Byte) :
    readStallAction b = if b = 1 ∨ b = 2 then some (if b = 1 then .force else .abandon) else none := by
  by_cases force : b = 1
  · rw [force]; rfl
  · by_cases abandon : b = 2
    · rw [abandon]; rfl
    · exact (if_neg force).trans ((if_neg abandon).trans (if_neg (not_or.2 ⟨force, abandon⟩)).symm)

/-- The verify codes (10, R200). -/
theorem readVerify_eq (b : Byte) : readVerify b = if b = 0 ∨ b = 1 then some (decide (b = 1)) else none := by
  by_cases off : b = 0
  · rw [off]; rfl
  · by_cases on : b = 1
    · rw [on]; rfl
    · exact (if_neg off).trans ((if_neg on).trans (if_neg (not_or.2 ⟨off, on⟩)).symm)

/-- The stall-action code and the verify code are known (10, R200). -/
def PolicyKnown (m : List Byte) : Prop := (byteAt m 12 = 1 ∨ byteAt m 12 = 2) ∧ (byteAt m 14 = 0 ∨ byteAt m 14 = 1)

/-- The policy as stored, where both codes are known (06, R121; 10, R200). -/
def storedPolicy (m : List Byte) : Policy :=
  { budget := max 1 (fieldAt m 9 2), stallLimit := clamp 1 15 (natAt m 11)
    stallAction := if byteAt m 12 = 1 then .force else .abandon
    passLimit := clamp 1 63 (natAt m 13), verify := decide (byteAt m 14 = 1), shift := min 6 (natAt m 15) }

theorem requestPolicy_known {m : List Byte} (h : PolicyKnown m) : requestPolicy m = some (storedPolicy m) := by
  simp only [requestPolicy, readStallAction_eq, readVerify_eq, if_pos h.1, if_pos h.2, storedPolicy]

theorem requestPolicy_unknown {m : List Byte} (h : ¬ PolicyKnown m) : requestPolicy m = none := by
  simp only [requestPolicy, readStallAction_eq, readVerify_eq]
  by_cases action : byteAt m 12 = 1 ∨ byteAt m 12 = 2
  · have verify : ¬(byteAt m 14 = 0 ∨ byteAt m 14 = 1) := fun verify => h ⟨action, verify⟩
    simp only [if_pos action, if_neg verify]
  · simp only [if_neg action]

/-- The free entry with the lowest number is the one found (06, R122). -/
theorem State.freeJob_eq_some {s : State} {j : JobNo} (free : s.job j = none) (lowest : ∀ k < j, s.job k ≠ none) :
    s.freeJob = some j := by
  have order : ∀ j : JobNo, allJobs = allJobs.take j ++ j :: allJobs.drop (j + 1) ∧ ∀ k ∈ allJobs.take j, k < j := by
    decide
  obtain ⟨parts, before⟩ := order j
  refine List.find?_eq_some_iff_append.2 ⟨by simp [free], _, _, parts, fun k hk => ?_⟩
  simpa [Option.isSome_iff_ne_none] using lowest k (before k hk)

/-- No entry is found where none is free (06, R120). -/
theorem State.freeJob_eq_none {s : State} (taken : ∀ j, s.job j ≠ none) : s.freeJob = none :=
  List.find?_eq_none.2 fun j _ => by simpa using taken j

/-- Check 1 (06, R120): the slot and the codes. -/
theorem State.copyVerdict_badRequest {s : State} {m : List Byte} (h : 16 ≤ natAt m 8 ∨ ¬ PolicyKnown m) :
    s.copyVerdict m = .error .badRequest := by
  unfold State.copyVerdict
  rcases h with above | unknown
  · simp only [requestSlot_eq_none above]
  · simp only [requestPolicy_unknown unknown]
    cases requestSlot m <;> rfl

/-- Check 2 (06, R120): the store's phase. -/
theorem State.copyVerdict_notReady {s : State} {m : List Byte} {i : Slot} (named : natAt m 8 = i.val) (known : PolicyKnown m)
    (phase : s.store.phase ≠ .initialized) : s.copyVerdict m = .error .notReady := by
  simp only [State.copyVerdict, requestSlot_eq_some named, requestPolicy_known known]
  exact if_pos phase

/-- Check 3 (06, R120): the lane's state. -/
theorem State.copyVerdict_wrongState {s : State} {m : List Byte} {i : Slot} (named : natAt m 8 = i.val) (known : PolicyKnown m)
    (phase : s.store.phase = .initialized) (other : (s.lane i).state ≠ .ready) :
    s.copyVerdict m = .error .wrongState := by
  simp only [State.copyVerdict, requestSlot_eq_some named, requestPolicy_known known]
  rw [if_neg (not_not.2 phase)]
  split
  · contradiction
  · rfl

/-- Check 4 (06, R120): the target's size. -/
theorem State.copyVerdict_targetTooSmall {s : State} {m : List Byte} {i : Slot} (named : natAt m 8 = i.val)
    (known : PolicyKnown m) (phase : s.store.phase = .initialized) (ready : (s.lane i).state = .ready) {facts : BoardFacts}
    (board : (s.lane i).facts = some facts) (small : 2 ^ facts.exponent < s.store.size) :
    s.copyVerdict m = .error .targetTooSmall := by
  simp only [State.copyVerdict, requestSlot_eq_some named, requestPolicy_known known, ready, board]
  rw [if_neg (not_not.2 phase), if_pos small]

/-- Check 5 (06, R120): a free entry. -/
theorem State.copyVerdict_noJobSlot {s : State} {m : List Byte} {i : Slot} (named : natAt m 8 = i.val)
    (known : PolicyKnown m) (phase : s.store.phase = .initialized) (ready : (s.lane i).state = .ready) {facts : BoardFacts}
    (board : (s.lane i).facts = some facts) (fits : s.store.size ≤ 2 ^ facts.exponent) (taken : ∀ j, s.job j ≠ none) :
    s.copyVerdict m = .error .noJobSlot := by
  simp only [State.copyVerdict, requestSlot_eq_some named, requestPolicy_known known, ready, board,
    State.freeJob_eq_none taken]
  rw [if_neg (not_not.2 phase), if_neg (Nat.not_lt.2 fits)]

/-- What passes the five checks is accepted (06, R120 and R122). -/
theorem State.copyVerdict_accepted {s : State} {m : List Byte} {i : Slot} (named : natAt m 8 = i.val)
    (known : PolicyKnown m) (phase : s.store.phase = .initialized) (ready : (s.lane i).state = .ready) {facts : BoardFacts}
    (board : (s.lane i).facts = some facts) (fits : s.store.size ≤ 2 ^ facts.exponent) {j : JobNo} (free : s.job j = none)
    (lowest : ∀ k < j, s.job k ≠ none) : s.copyVerdict m = .ok (i, facts, storedPolicy m, j) := by
  simp only [State.copyVerdict, requestSlot_eq_some named, requestPolicy_known known, ready, board,
    State.freeJob_eq_some free lowest]
  rw [if_neg (not_not.2 phase), if_neg (Nat.not_lt.2 fits)]

/-- COPY_START answers a failed check with its status. -/
theorem State.decideCopyStart_error {s : State} {m : List Byte} {status : Status} (h : s.copyVerdict m = .error status) :
    s.decideCopyStart m = s.refuse m status := by
  simp only [State.decideCopyStart, h]

/-- The arbiter's choice in the state without the request, and the answer. -/
theorem State.arbitrate_respond (s : State) (m : List Byte) (rest : List (List Byte)) (status : Status) (body : Payload) :
    ({ s with requests := rest } : State).arbitrate.respond m status body = s.arbitrate.answered m rest status body := by
  rw [State.arbitrate_withRequests, State.respond_eq_answered]

/-- The end of a job does not look at the request queue. -/
theorem State.endJob_withRequests (s : State) (rest : List (List Byte)) (j : JobNo) (outcome : JobState) :
    ({ s with requests := rest } : State).endJob j outcome = { s.endJob j outcome with requests := rest } := by
  have same : ({ s with requests := rest } : State).job j = s.job j := rfl
  rcases e : s.job j with _ | job
  · simp only [State.endJob, same, e]
  · rw [State.endJob_eq e, State.endJob_eq (same.trans e)]
    rfl

/-- Settles O38: the five checks one by one, and an accepted request's job in the entry found. -/
theorem copyStart_checksAndAccepts : Obligations.CopyStart_ChecksAndAccepts := by
  intro s m rest offered clamped known policy
  have stored : storedPolicy m = policy := by
    have budget := fieldAt_lt m 9 2
    simp only [storedPolicy, policy, clamped, clamp_eq_ite (show 1 ≤ 15 by decide), clamp_eq_ite (show 1 ≤ 63 by decide)]
    congr 1
    · split
      · omega
      · split <;> omega
    · rw [if_neg (Nat.not_lt_zero _)]
      split <;> omega
  have refuses : ∀ {status}, ({ s with requests := rest } : State).copyVerdict m = .error status →
      s.Refuses .copyStart m rest status := fun e =>
    offered.decides State.decideCopyStart rfl (State.decideCopyStart_error e)
  refine ⟨fun bad => refuses (State.copyVerdict_badRequest bad), fun i named known =>
    ⟨fun phase => refuses (State.copyVerdict_notReady named known phase),
      fun phase other => refuses (State.copyVerdict_wrongState named known phase other), fun facts phase ready board =>
      ⟨fun small => refuses (State.copyVerdict_targetTooSmall named known phase ready board small),
        fun fits taken => refuses (State.copyVerdict_noJobSlot named known phase ready board fits taken),
        fun j fits free lowest => ?_⟩⟩⟩
  · have verdict : ({ s with requests := rest } : State).copyVerdict m = .ok (i, facts, policy, j) :=
      stored ▸ State.copyVerdict_accepted named known phase ready board fits free lowest
    refine offered.decides State.decideCopyStart rfl ?_
    simp only [State.decideCopyStart, verdict]
    exact State.arbitrate_respond ((s.setJob j (some (Job.accepted i facts.profile policy))).setLane i
      { (s.lane i).goto .loading with cause := none }) m rest .ok _

/-- Settles O39: the end of the job in closed form, its lane going from LOADING to READY. -/
theorem copyAbort_endsJob : Obligations.CopyAbort_EndsJob := by
  intro s m rest offered
  refine ⟨fun above => offered.decides State.decideCopyAbort rfl ?_, fun i named =>
    ⟨fun untargeted => offered.decides State.decideCopyAbort rfl ?_,
      fun j job target hj unique loading => offered.decides State.decideCopyAbort rfl ?_⟩⟩
  · simp only [State.decideCopyAbort, requestSlot_eq_none above]
    rfl
  · have nothing : ({ s with requests := rest } : State).jobOn i = none := (State.jobOn_eq_none_iff s i).2 untargeted
    simp only [State.decideCopyAbort, requestSlot_eq_some named, nothing]
    rfl
  · have found : ({ s with requests := rest } : State).jobOn i = some j := State.jobOn_eq_some target unique
    obtain ⟨other, hj', _, rfl⟩ := target
    obtain rfl : other = job := Option.some.inj (hj'.symm.trans hj)
    have ended := State.endJob_eq hj .aborted
    rw [Lane.jobEnded_loading loading (by simp)] at ended
    simp only [State.decideCopyAbort, requestSlot_eq_some named, found]
    rw [State.endJob_withRequests, State.arbitrate_respond, ended]

end Sys2Proof.Machine
end

section
/-! SUPPORT. The slot sense scanner and the seating events (03, R45 to R54): what a scan delivers, what each event makes of its
lane, and what a lane that loses its board leaves behind. -/

namespace Sys2Proof.Machine

/-! ### SCAN (03, R45 and R46) -/

/-- PRESENT and LEVER events are told apart (03, R46). -/
theorem presentEvent_ne_leverEvent (a b : Bool) : presentEvent a ≠ leverEvent b := by
  cases a <;> cases b <;> simp [presentEvent, leverEvent]

/-- The events one scan delivers for one slot (03, R45 and R46). -/
def slotEvents (debounce : Nat) (c : Scanner) (present lever : BitVec 16) (i : Slot) : List (Slot × SeatEvent) :=
  (if c.present[i].accepts debounce (present.getLsbD i.val) then [(i, presentEvent (present.getLsbD i.val))] else [])
    ++ (if c.lever[i].accepts debounce (lever.getLsbD i.val) then [(i, leverEvent (lever.getLsbD i.val))] else [])

theorem scanEvents_eq_flatMap (debounce : Nat) (c : Scanner) (present lever : BitVec 16) :
    scanEvents debounce c present lever = allSlots.flatMap (slotEvents debounce c present lever) := rfl

/-- A slot's events are of that slot: one of its PRESENT input, one of its LEVER input. -/
theorem mem_slotEvents {debounce : Nat} {c : Scanner} {present lever : BitVec 16} {i : Slot} {e : Slot × SeatEvent} :
    e ∈ slotEvents debounce c present lever i ↔
      (c.present[i].accepts debounce (present.getLsbD i.val) = true ∧ e = (i, presentEvent (present.getLsbD i.val))) ∨
        (c.lever[i].accepts debounce (lever.getLsbD i.val) = true ∧ e = (i, leverEvent (lever.getLsbD i.val))) := by
  unfold slotEvents
  rw [List.mem_append]
  refine or_congr ?_ ?_ <;> split <;> simp_all

theorem slotEvents_nodup (debounce : Nat) (c : Scanner) (present lever : BitVec 16) (i : Slot) :
    (slotEvents debounce c present lever i).Nodup := by
  have apart := presentEvent_ne_leverEvent (present.getLsbD i.val) (lever.getLsbD i.val)
  unfold slotEvents
  generalize presentEvent (present.getLsbD i.val) = a at apart ⊢
  generalize leverEvent (lever.getLsbD i.val) = b at apart ⊢
  split <;> split <;> simp [apart]

/-- No event is delivered twice by one scan. -/
theorem scanEvents_nodup (debounce : Nat) (c : Scanner) (present lever : BitVec 16) :
    (scanEvents debounce c present lever).Nodup := by
  rw [scanEvents_eq_flatMap, List.nodup_flatMap]
  refine ⟨fun i _ => slotEvents_nodup .., (show allSlots.Nodup by decide).imp fun {i k} other e hi hk => other ?_⟩
  have slot : ∀ {n}, e ∈ slotEvents debounce c present lever n → e.1 = n := fun h => by
    rcases mem_slotEvents.1 h with ⟨_, rfl⟩ | ⟨_, rfl⟩ <;> rfl
  rw [← slot hi, ← slot hk]

/-- An event is delivered for a slot exactly when one of the slot's inputs accepts the level that the event tells of. -/
theorem mem_scanEvents {debounce : Nat} {c : Scanner} {present lever : BitVec 16} {i : Slot} {e : SeatEvent} :
    (i, e) ∈ scanEvents debounce c present lever ↔
      (c.present[i].accepts debounce (present.getLsbD i.val) = true ∧ e = presentEvent (present.getLsbD i.val)) ∨
        (c.lever[i].accepts debounce (lever.getLsbD i.val) = true ∧ e = leverEvent (lever.getLsbD i.val)) := by
  rw [scanEvents_eq_flatMap, List.mem_flatMap]
  simp only [mem_slotEvents, Prod.mk.injEq]
  refine ⟨?_, fun h => ⟨i, mem_allSlots i, h.imp (fun ⟨a, e⟩ => ⟨a, rfl, e⟩) fun ⟨a, e⟩ => ⟨a, rfl, e⟩⟩⟩
  rintro ⟨_, _, ⟨a, rfl, e⟩ | ⟨a, rfl, e⟩⟩
  · exact .inl ⟨a, e⟩
  · exact .inr ⟨a, e⟩

/-- An input accepts a level exactly when its accepted level moves there (03, R45). -/
theorem Input.accepts_iff (debounce : Nat) (x : Input) (sample level : Bool) :
    x.accepts debounce sample = true ∧ sample = level ↔ x.level = !level ∧ (x.scan debounce sample).level = level := by
  unfold Input.accepts Input.scan
  by_cases same : sample = x.level
  · simp only [same, bne_self_eq_false, Bool.false_and, Bool.false_eq_true, false_and, if_true, false_iff, not_and]
    intro moved kept
    rw [kept] at moved
    cases level <;> cases moved
  · by_cases full : debounce ≤ x.count + 1
    · simp only [same, full, if_false, if_true, decide_true, Bool.and_true, bne_iff_ne, ne_eq, not_false_eq_true, true_and]
      refine ⟨fun e => ⟨?_, e⟩, And.right⟩
      rw [← e]
      exact Bool.eq_not.2 (Ne.symm same)
    · simp only [same, full, if_false, decide_false, Bool.and_false, Bool.false_eq_true, false_and, false_iff, not_and]
      intro moved kept
      rw [kept] at moved
      cases level <;> cases moved

/-- An accepted PRESENT level is delivered exactly when it is a change (03, R46). -/
theorem mem_scanEvents_present {debounce : Nat} {c : Scanner} {present lever : BitVec 16} {i : Slot} (level : Bool) :
    (i, presentEvent level) ∈ scanEvents debounce c present lever ↔
      c.present[i].level = !level ∧ (c.present[i].scan debounce (present.getLsbD i.val)).level = level := by
  have same : ∀ a, presentEvent level = presentEvent a ↔ a = level := fun a => by
    cases a <;> cases level <;> simp [presentEvent]
  rw [mem_scanEvents, same, or_iff_left fun h => presentEvent_ne_leverEvent _ _ h.2, Input.accepts_iff]

/-- An accepted LEVER level is delivered exactly when it is a change (03, R46). -/
theorem mem_scanEvents_lever {debounce : Nat} {c : Scanner} {present lever : BitVec 16} {i : Slot} (level : Bool) :
    (i, leverEvent level) ∈ scanEvents debounce c present lever ↔
      c.lever[i].level = !level ∧ (c.lever[i].scan debounce (lever.getLsbD i.val)).level = level := by
  have same : ∀ a, leverEvent level = leverEvent a ↔ a = level := fun a => by
    cases a <;> cases level <;> simp [leverEvent]
  rw [mem_scanEvents, same, or_iff_right fun h => presentEvent_ne_leverEvent _ _ h.2.symm, Input.accepts_iff]

/-- Settles O24: the scanner's own scan, each event by the level that has moved. -/
theorem scan_debouncesEachInput : Obligations.Scan_DebouncesEachInput := by
  intro s present lever awake
  have run : exec (.scan present lever) s = .next (s.scanned present lever) :=
    congrArg Host.Outcome.next (s.unlessReset_run _ awake)
  refine ⟨fun early => ?_, fun due => ?_⟩
  · rw [run, State.scanned, if_neg early]
  · refine ⟨s.scanner.scan s.settings.debounce present lever, scanEvents s.settings.debounce s.scanner present lever, ?_, rfl,
      rfl, scanEvents_nodup .., fun i => ?_⟩
    · rw [run, State.scanned, if_pos due]
    · simp only [Scanner.scan, scanInputs_getElem]
      exact ⟨rfl, rfl, mem_scanEvents_present true, mem_scanEvents_present false, mem_scanEvents_lever true,
        mem_scanEvents_lever false⟩

/-! ### Arrivals (03, R50 and R51) -/

/-- A lane whose view has just changed enters IDENTIFYING (03, R51). -/
theorem State.setLane_identify (s : State) (i : Slot) (l : Lane) :
    (s.setLane i l).identify i =
      { s.setLane i (l.cleared .identifying none) with master := s.master.appended i } := by
  rw [State.identify, State.lane_setLane_self, Lane.identify_eq, State.setLane_setLane, State.setLane_master,
    IdMaster.append_eq]

theorem execPresentRise_run {s : State} (awake : s.inReset = false) (i : Slot) :
    exec (.presentRise i) s = .next ((s.takeEvent i .presentRise).takePresentRise i) :=
  congrArg Host.Outcome.next (s.unlessReset_run _ awake)

theorem execLeverClose_run {s : State} (awake : s.inReset = false) (i : Slot) :
    exec (.leverClose i) s = .next ((s.takeEvent i .leverClose).takeLeverClose i) :=
  congrArg Host.Outcome.next (s.unlessReset_run _ awake)

/-- Settles O25: each event by the level the lane sees and by its state. -/
theorem seatingArrival_identifies : Obligations.SeatingArrival_Identifies := by
  intro s i awake l taken
  have lane : ∀ e, (s.takeEvent i e).lane i = l := fun _ => rfl
  refine ⟨fun seen => ?_, fun absent other => ?_, fun absent empty closed => ?_, fun seen => ?_,
    fun opened other kept => ?_, fun opened arrives => ?_⟩
  · rw [execPresentRise_run awake, State.takePresentRise]
    simp only [lane]
    rw [if_pos seen]
    rfl
  · rw [execPresentRise_run awake, State.takePresentRise]
    simp only [lane]
    rw [if_neg (Bool.eq_false_iff.1 absent), if_neg other]
    rfl
  · rw [execPresentRise_run awake, State.takePresentRise]
    simp only [lane]
    rw [if_neg (Bool.eq_false_iff.1 absent), if_pos ⟨empty, closed⟩, State.setLane_identify]
    rfl
  · rw [execLeverClose_run awake, State.takeLeverClose]
    simp only [lane]
    rw [if_pos seen]
    rfl
  · rw [execLeverClose_run awake, State.takeLeverClose]
    simp only [lane]
    rw [if_neg (Bool.eq_false_iff.1 opened), if_neg (not_or.2 ⟨other, kept⟩)]
    rfl
  · rw [execLeverClose_run awake, State.takeLeverClose]
    simp only [lane]
    rw [if_neg (Bool.eq_false_iff.1 opened), if_pos arrives, State.setLane_identify]
    rfl

/-! ### Departures (03, R50, R52 and R53) -/

theorem execPresentFall_run {s : State} (awake : s.inReset = false) (i : Slot) :
    exec (.presentFall i) s = .next ((s.takeEvent i .presentFall).takePresentFall i) :=
  congrArg Host.Outcome.next (s.unlessReset_run _ awake)

theorem execLeverOpen_run {s : State} (awake : s.inReset = false) (i : Slot) :
    exec (.leverOpen i) s = .next ((s.takeEvent i .leverOpen).takeLeverOpen i) :=
  congrArg Host.Outcome.next (s.unlessReset_run _ awake)

/-- PRESENT falls where no board was seen. -/
theorem State.takePresentFall_unseen {s : State} {i : Slot} (absent : (s.lane i).present = false) :
    s.takePresentFall i = s := if_pos absent

/-- PRESENT falls on an EMPTY lane (03, R50). -/
theorem State.takePresentFall_empty {s : State} {i : Slot} (present : (s.lane i).present = true)
    (empty : (s.lane i).state = .empty) : s.takePresentFall i = s.setLane i { s.lane i with present := false } := by
  simp only [State.takePresentFall, empty]
  exact if_neg (by simp [present])

/-- PRESENT falls on an EXTRACTING lane (03, R53). -/
theorem State.takePresentFall_extracting {s : State} {i : Slot} (present : (s.lane i).present = true)
    (extracting : (s.lane i).state = .extracting) :
    s.takePresentFall i = s.setLane i (({ s.lane i with present := false } : Lane).cleared .empty (s.lane i).cause) := by
  rw [← Lane.vacate_eq]
  simp only [State.takePresentFall, extracting]
  exact if_neg (by simp [present])

/-- PRESENT falls on any other lane (03, R53). -/
theorem State.takePresentFall_seated {s : State} {i : Slot} (present : (s.lane i).present = true)
    (occupied : (s.lane i).state ≠ .empty) (kept : (s.lane i).state ≠ .extracting) :
    s.takePresentFall i =
      s.leaveBySeating i (({ s.lane i with present := false } : Lane).cleared .empty (some .surpriseRemoval)) := by
  rw [← Lane.vacate_eq]
  simp only [State.takePresentFall]
  exact if_neg (by simp [present])

/-- The lever opens where it was open. -/
theorem State.takeLeverOpen_unseen {s : State} {i : Slot} (opened : (s.lane i).lever = false) :
    s.takeLeverOpen i = s := if_pos opened

/-- The lever opens on an EMPTY or EXTRACTING lane (03, R50). -/
theorem State.takeLeverOpen_out {s : State} {i : Slot} (closed : (s.lane i).lever = true)
    (out : (s.lane i).state = .empty ∨ (s.lane i).state = .extracting) :
    s.takeLeverOpen i = s.setLane i { s.lane i with lever := false } := by
  simp only [State.takeLeverOpen]
  rw [if_neg (by simp [closed])]
  rcases out with e | e <;> simp only [e]

/-- The lever opens on any other lane (03, R52). -/
theorem State.takeLeverOpen_seated {s : State} {i : Slot} (closed : (s.lane i).lever = true)
    (occupied : (s.lane i).state ≠ .empty) (kept : (s.lane i).state ≠ .extracting) :
    s.takeLeverOpen i =
      s.leaveBySeating i (({ s.lane i with lever := false } : Lane).moved .extracting (some .extraction)) := by
  rw [← Lane.extract_eq]
  simp only [State.takeLeverOpen]
  exact if_neg (by simp [closed])

/-! ### What a lane that loses its board leaves behind (03, R66; 06, R140) -/

/-- A lane without a place in the FIFO and without a job. -/
theorem State.leaveBySeating_other {s : State} {i : Slot}
    (other : (s.lane i).state = .training ∨ (s.lane i).state = .ready ∨ (s.lane i).state = .live ∨
      (s.lane i).state = .faulted) (l : Lane) : s.leaveBySeating i l = s.setLane i l := by
  unfold State.leaveBySeating
  rcases other with e | e | e | e <;> rw [e]

/-- The lane whose slot is served (03, R66). -/
theorem State.leaveBySeating_head {s : State} {i : Slot} (identifying : (s.lane i).state = .identifying) {rest : List Slot}
    (fifo : s.master.fifo = i :: rest) (l : Lane) :
    s.leaveBySeating i l =
      { s.setLane i l with
        master := IdMaster.nextServed rest (s.master.abandoned || decide (s.master.phase = .attempt)) } := by
  unfold State.leaveBySeating
  rw [identifying, ← IdMaster.abandon_head fifo]

/-- A lane whose slot waits behind the head (03, R66). -/
theorem State.leaveBySeating_behind {s : State} {i : Slot} (identifying : (s.lane i).state = .identifying) {head : Slot}
    {front back : List Slot} (fifo : s.master.fifo = head :: (front ++ i :: back)) (first : i ∉ head :: front) (l : Lane) :
    s.leaveBySeating i l = { s.setLane i l with master := { s.master with fifo := head :: (front ++ back) } } := by
  rw [List.mem_cons, not_or] at first
  have left : (front ++ i :: back).erase i = front ++ back := by
    rw [List.erase_append_right _ first.2, List.erase_cons_head]
  unfold State.leaveBySeating
  rw [identifying, ← left, ← IdMaster.abandon_behind fifo (Ne.symm first.1)]

/-- A lane with a job (06, R140). -/
theorem State.leaveBySeating_loading {s : State} {i : Slot} (loading : (s.lane i).state = .loading) {j : JobNo} {job : Job}
    (target : s.TargetedBy i j) (hj : s.job j = some job) (unique : ∀ k, s.TargetedBy i k → k = j) {l : Lane}
    (left : l.state ≠ .loading) : s.leaveBySeating i l = (s.setLane i l).jobLost j job .targetLost := by
  unfold State.leaveBySeating
  rw [loading]
  have out : ((s.setLane i l).lane i).state ≠ .loading := by rwa [State.lane_setLane_self]
  exact State.failJobOn_eq out target hj unique _

/-- The states in which a lane gives up neither a place in the FIFO nor a job are no EMPTY and no EXTRACTING. -/
theorem LaneState.occupied_of_workless {x : LaneState} (h : x = .training ∨ x = .ready ∨ x = .live ∨ x = .faulted) :
    x ≠ .empty ∧ x ≠ .extracting := by
  rcases h with rfl | rfl | rfl | rfl <;> simp

/-- Settles O26: each event by the level the lane sees, its state, and what a lane in that state leaves behind. -/
theorem seatingDeparture_givesUpWork : Obligations.SeatingDeparture_GivesUpWork := by
  refine ⟨fun s i awake => ?fall, fun s i awake => ?opening⟩
  case fall =>
    rw [execPresentFall_run awake]
    intro l taken gone running
    have seated : l.present = true → l.state ≠ .empty → l.state ≠ .extracting →
        (s.takeEvent i .presentFall).takePresentFall i = (s.takeEvent i .presentFall).leaveBySeating i gone :=
      State.takePresentFall_seated (s := s.takeEvent i .presentFall)
    refine ⟨fun absent => ?_, fun present empty => ?_, fun present extracting => ?_, fun present other => ?_,
      fun rest present identifying fifo => ?_, fun head front back present identifying fifo first => ?_,
      fun j job present loading target hj unique => ?_⟩ <;> refine congrArg Host.Outcome.next ?_
    · exact State.takePresentFall_unseen absent
    · exact State.takePresentFall_empty present empty
    · exact State.takePresentFall_extracting present extracting
    · obtain ⟨occupied, kept⟩ := LaneState.occupied_of_workless other
      exact (seated present occupied kept).trans (State.leaveBySeating_other (s := s.takeEvent i .presentFall) other gone)
    · exact (seated present (by simp [identifying]) (by simp [identifying])).trans
        (State.leaveBySeating_head (s := s.takeEvent i .presentFall) identifying fifo gone)
    · exact (seated present (by simp [identifying]) (by simp [identifying])).trans
        (State.leaveBySeating_behind (s := s.takeEvent i .presentFall) identifying fifo first gone)
    · exact (seated present (by simp [loading]) (by simp [loading])).trans
        (State.leaveBySeating_loading (s := s.takeEvent i .presentFall) loading target hj unique
          (show LaneState.empty ≠ .loading by decide))
  case opening =>
    rw [execLeverOpen_run awake]
    intro l taken out running
    have seated : l.lever = true → l.state ≠ .empty → l.state ≠ .extracting →
        (s.takeEvent i .leverOpen).takeLeverOpen i = (s.takeEvent i .leverOpen).leaveBySeating i out :=
      State.takeLeverOpen_seated (s := s.takeEvent i .leverOpen)
    refine ⟨fun opened => ?_, fun closed outside => ?_, fun closed other => ?_, fun rest closed identifying fifo => ?_,
      fun head front back closed identifying fifo first => ?_, fun j job closed loading target hj unique => ?_⟩ <;>
      refine congrArg Host.Outcome.next ?_
    · exact State.takeLeverOpen_unseen opened
    · exact State.takeLeverOpen_out closed outside
    · obtain ⟨occupied, kept⟩ := LaneState.occupied_of_workless other
      exact (seated closed occupied kept).trans (State.leaveBySeating_other (s := s.takeEvent i .leverOpen) other out)
    · exact (seated closed (by simp [identifying]) (by simp [identifying])).trans
        (State.leaveBySeating_head (s := s.takeEvent i .leverOpen) identifying fifo out)
    · exact (seated closed (by simp [identifying]) (by simp [identifying])).trans
        (State.leaveBySeating_behind (s := s.takeEvent i .leverOpen) identifying fifo first out)
    · exact (seated closed (by simp [loading]) (by simp [loading])).trans
        (State.leaveBySeating_loading (s := s.takeEvent i .leverOpen) loading target hj unique
          (show LaneState.extracting ≠ .loading by decide))

/-! ### The two orders (03, R54) -/

/-- The lane that a job's loss leaves has already left LOADING. -/
@[simp] theorem State.jobLost_lane (s : State) (j : JobNo) (job : Job) (cause : JobCause) (i : Slot) :
    (s.jobLost j job cause).lane i = s.lane i := State.arbitrate_lane _ i

/-- A lost job ends FAILED: the arbiter grants it nothing. -/
theorem State.jobLost_job (s : State) (j : JobNo) (job : Job) (cause : JobCause) :
    (s.jobLost j job cause).job j = some (job.ended (.failed cause)) := by
  have lost : ∀ a : State, a.jobs = s.jobs.set j (some (job.ended (.failed cause))) →
      a.arbitrate.job j = some (job.ended (.failed cause)) := fun a e => by
    have entry : a.job j = some (job.ended (.failed cause)) := by simp [State.job, e]
    rw [State.arbitrate_job_of_ne fun other held => ?_, entry]
    rw [entry] at held
    rw [← Option.some.inj held]
    simp [Job.ended]
  exact lost _ rfl

/-- What a lane that loses its board leaves: the lane as given, and a job on it FAILED with cause TARGET_LOST. -/
theorem State.leaveBySeating_leaves {s : State} (agree : s.BlocksAgree) {i : Slot} {l : Lane} (left : l.state ≠ .loading) :
    (s.leaveBySeating i l).lane i = l ∧
      ∀ j, s.TargetedBy i j → ∃ job, (s.leaveBySeating i l).job j = some job ∧ job.state = .failed .targetLost := by
  by_cases loading : (s.lane i).state = .loading
  · obtain ⟨j, target⟩ := (agree.loading_iff i).1 loading
    have unique : ∀ k, s.TargetedBy i k → k = j := fun k other => agree.one_job i k j other target
    obtain ⟨job, hj, _, _⟩ := id target
    rw [State.leaveBySeating_loading loading target hj unique left]
    refine ⟨by simp, fun k other => ?_⟩
    rw [unique k other]
    exact ⟨_, State.jobLost_job .., rfl⟩
  · refine ⟨?_, fun j target => absurd ((agree.loading_iff i).2 ⟨j, target⟩) loading⟩
    unfold State.leaveBySeating
    split
    · exact State.lane_setLane_self s i l
    · contradiction
    · exact State.lane_setLane_self s i l

/-- No seating event leaves or enters a reset. -/
theorem State.leaveBySeating_inReset (s : State) (i : Slot) (l : Lane) : (s.leaveBySeating i l).inReset = s.inReset :=
  congrArg (fun c : Port => c.powerOnReset || c.pinAsserted) (s.leaveBySeating_port i l)

theorem State.BlocksAgree.takeEvent {s : State} (agree : s.BlocksAgree) (i : Slot) (e : SeatEvent) :
    (s.takeEvent i e).BlocksAgree :=
  ⟨agree.fifo_iff, agree.fifo_once, agree.master_idle, agree.attempts, agree.loading_iff, agree.one_job, agree.granted,
    agree.client, agree.seating, agree.facts, agree.initialized⟩

/-- PRESENT falls on a seated lane: the lane it leaves, and a job on it FAILED. -/
theorem execPresentFall_leaves {s : State} (awake : s.inReset = false) (agree : s.BlocksAgree) {i : Slot}
    (present : (s.lane i).present = true) (occupied : (s.lane i).state ≠ .empty) (kept : (s.lane i).state ≠ .extracting) :
    ∃ a, exec (.presentFall i) s = .next a ∧ a.inReset = false ∧
      a.lane i = ({ s.lane i with present := false } : Lane).cleared .empty (some .surpriseRemoval) ∧
      ∀ j, s.TargetedBy i j → ∃ job, a.job j = some job ∧ job.state = .failed .targetLost := by
  obtain ⟨lane, lost⟩ := State.leaveBySeating_leaves (agree.takeEvent i .presentFall)
    (l := ({ s.lane i with present := false } : Lane).cleared .empty (some .surpriseRemoval))
    (show LaneState.empty ≠ .loading by decide)
  exact ⟨_, (execPresentFall_run awake i).trans <| congrArg Host.Outcome.next <|
    State.takePresentFall_seated (s := s.takeEvent i .presentFall) present occupied kept,
    (State.leaveBySeating_inReset ..).trans awake, lane, lost⟩

/-- The lever opens on a seated lane: the lane it leaves, and a job on it FAILED. -/
theorem execLeverOpen_leaves {s : State} (awake : s.inReset = false) (agree : s.BlocksAgree) {i : Slot}
    (closed : (s.lane i).lever = true) (occupied : (s.lane i).state ≠ .empty) (kept : (s.lane i).state ≠ .extracting) :
    ∃ a, exec (.leverOpen i) s = .next a ∧ a.inReset = false ∧
      a.lane i = ({ s.lane i with lever := false } : Lane).moved .extracting (some .extraction) ∧
      ∀ j, s.TargetedBy i j → ∃ job, a.job j = some job ∧ job.state = .failed .targetLost := by
  obtain ⟨lane, lost⟩ := State.leaveBySeating_leaves (agree.takeEvent i .leverOpen)
    (l := ({ s.lane i with lever := false } : Lane).moved .extracting (some .extraction))
    (show LaneState.extracting ≠ .loading by decide)
  exact ⟨_, (execLeverOpen_run awake i).trans <| congrArg Host.Outcome.next <|
    State.takeLeverOpen_seated (s := s.takeEvent i .leverOpen) closed occupied kept,
    (State.leaveBySeating_inReset ..).trans awake, lane, lost⟩

/-- Settles O27: the first event gives the job up and sets the cause, the second finds the lane EMPTY or EXTRACTING. -/
theorem seatingOrders_endEmpty : Obligations.SeatingOrders_EndEmpty := by
  intro s i awake agree occupied kept
  have seated : (s.lane i).present = true ∧ (s.lane i).lever = true := by
    have := agree.seating i
    unfold Lane.SeatingFits at this
    split at this
    · contradiction
    · contradiction
    · exact this
  obtain ⟨a, fell, awake_a, lane_a, lost_a⟩ := execPresentFall_leaves awake agree seated.1 occupied kept
  obtain ⟨b, opened, awake_b, lane_b, lost_b⟩ := execLeverOpen_leaves awake agree seated.2 occupied kept
  have opened_after : (a.takeEvent i .leverOpen).takeLeverOpen i =
      (a.takeEvent i .leverOpen).setLane i { a.lane i with lever := false } :=
    State.takeLeverOpen_out (s := a.takeEvent i .leverOpen) ((congrArg Lane.lever lane_a).trans seated.2)
      (.inl (congrArg Lane.state lane_a))
  have fell_after : (b.takeEvent i .presentFall).takePresentFall i = (b.takeEvent i .presentFall).setLane i
      (({ b.lane i with present := false } : Lane).cleared .empty (b.lane i).cause) :=
    State.takePresentFall_extracting (s := b.takeEvent i .presentFall) ((congrArg Lane.present lane_b).trans seated.1)
      (congrArg Lane.state lane_b)
  refine ⟨a, b, _, _, fell, execLeverOpen_run awake_a i, opened, execPresentFall_run awake_b i, ?_⟩
  rw [opened_after, fell_after]
  simp only [State.lane_setLane_self]
  exact ⟨congrArg Lane.state lane_a, rfl, congrArg Lane.facts lane_a, rfl, congrArg Lane.cause lane_a,
    congrArg Lane.cause lane_b, fun j target => ⟨lost_a j target, lost_b j target⟩⟩

end Sys2Proof.Machine
end

section
/-! SUPPORT. Identification, training and the lane link (03, R60 to R71; 04, R77 to R86): what the end of an attempt, a reply, an
expiry and the end of a transmission make of a lane. -/

namespace Sys2Proof.Machine

/-! ### The descriptor (03, R64; 10, R204) -/

/-- The four conditions on a descriptor (03, R64). -/
def DescriptorValid (d : Vector Byte 16) : Prop :=
  (d.toList.map BitVec.toNat).sum % 256 = 0 ∧ d[0] = 1 ∧ (d[2] = 1 ∨ d[2] = 2) ∧ 16 ≤ d[3].toNat ∧ d[3].toNat ≤ 20

/-- The board facts a valid descriptor carries (10, R204). -/
def descriptorFacts (d : Vector Byte 16) : BoardFacts :=
  { boardClass := d[1], profile := if d[2] = 1 then .compact else .full, exponent := d[3].toNat
    serial := #v[d[6], d[7], d[8], d[9], d[10], d[11], d[12], d[13]] }

theorem Byte.toNat_eq_iff (b : Byte) {n : Nat} (small : n < 256) : b.toNat = n ↔ b = BitVec.ofNat 8 n := by
  rw [← BitVec.toNat_inj, BitVec.toNat_ofNat, Nat.mod_eq_of_lt small]

theorem descriptor_conditions_iff (d : Vector Byte 16) :
    ((d.toList.foldl (fun n b => n + b.toNat) 0) % 256 = 0 ∧ d[0].toNat = 1 ∧ (d[2].toNat = 1 ∨ d[2].toNat = 2) ∧
      16 ≤ d[3].toNat ∧ d[3].toNat ≤ 20) ↔ DescriptorValid d := by
  rw [DescriptorValid, List.sum_eq_foldl, List.foldl_map, Byte.toNat_eq_iff d[0] (by decide), Byte.toNat_eq_iff d[2] (by decide),
    Byte.toNat_eq_iff d[2] (by decide)]
  rfl

theorem readDescriptor_valid {d : Vector Byte 16} (valid : DescriptorValid d) :
    readDescriptor d = some (descriptorFacts d) := by
  rw [readDescriptor, if_pos ((descriptor_conditions_iff d).2 valid), descriptorFacts]
  simp only [Byte.toNat_eq_iff d[2] (show 1 < 256 by decide)]
  rfl

theorem readDescriptor_invalid {d : Vector Byte 16} (broken : ¬ DescriptorValid d) : readDescriptor d = none := by
  rw [readDescriptor, if_neg (mt (descriptor_conditions_iff d).1 broken)]

/-- A valid descriptor takes the lane to TRAINING attempt 1 (03, R64 and R67). -/
theorem Lane.identified_valid (l : Lane) {d : Vector Byte 16} (valid : DescriptorValid d) :
    l.identified d = { l with state := .training, mark := true, facts := some (descriptorFacts d) }.aligning 1 := by
  rw [Lane.identified, readDescriptor_valid valid]
  exact Lane.beginAlign_eq _

/-- Any other descriptor takes the lane to FAULTED (03, R65). -/
theorem Lane.identified_invalid (l : Lane) {d : Vector Byte 16} (broken : ¬ DescriptorValid d) :
    l.identified d = l.moved .faulted (some .idInvalid) := by
  rw [Lane.identified, readDescriptor_invalid broken]
  exact Lane.fault_eq _ _

/-! ### The end of an attempt (03, R62 to R66) -/

/-- The end of the attempt in progress on the head slot. -/
theorem State.attemptEnds_head {s : State} {i : Slot} {rest : List Slot} (kept : s.master.abandoned = false)
    (attempt : s.master.phase = .attempt) (fifo : s.master.fifo = i :: rest) (effect : Slot → State → State) :
    s.attemptEnds effect = effect i s := by
  have head : s.master.attempting = some i := (s.master.attempting_iff i).2 ⟨attempt, by rw [fifo]; rfl⟩
  rw [State.attemptEnds, if_neg (Bool.eq_false_iff.1 kept), head]

/-- The end of an abandoned attempt is discarded (03, R66). -/
theorem State.attemptEnds_abandoned {s : State} (abandoned : s.master.abandoned = true) (effect : Slot → State → State) :
    s.attemptEnds effect = { s with master := { s.master with abandoned := false } } := if_pos abandoned

/-- Without an attempt none ends. -/
theorem State.attemptEnds_idle {s : State} (kept : s.master.abandoned = false) (idle : s.master.phase ≠ .attempt)
    (effect : Slot → State → State) : s.attemptEnds effect = s := by
  have none : s.master.attempting = none :=
    Option.eq_none_iff_forall_ne_some.2 fun i e => idle ((s.master.attempting_iff i).1 e).1
  rw [State.attemptEnds, if_neg (Bool.eq_false_iff.1 kept), none]

/-- The identification of the head slot ends: the next slot is served (03, R60). -/
theorem State.endIdentification_head {s : State} {i : Slot} {rest : List Slot} (kept : s.master.abandoned = false)
    (fifo : s.master.fifo = i :: rest) (l : Lane) :
    s.endIdentification i l = { s.setLane i l with master := IdMaster.nextServed rest false } := by
  rw [State.endIdentification, IdMaster.remove_head fifo, kept]

theorem execIdAttemptComplete_run {s : State} (awake : s.inReset = false) (d : Vector Byte 16) :
    exec (.idAttemptComplete d) s = .next (s.attemptEnds (State.completeAttempt d)) :=
  congrArg Host.Outcome.next (s.unlessReset_run _ awake)

theorem execIdNotAcknowledged_run {s : State} (awake : s.inReset = false) :
    exec .idNotAcknowledged s = .next (s.attemptEnds State.countNack) :=
  congrArg Host.Outcome.next (s.unlessReset_run _ awake)

theorem execIdArbitrationLost_run {s : State} (awake : s.inReset = false) :
    exec .idArbitrationLost s = .next (s.attemptEnds State.countLoss) :=
  congrArg Host.Outcome.next (s.unlessReset_run _ awake)

theorem execIdWaitExpiry_run {s : State} (awake : s.inReset = false) :
    exec .idWaitExpiry s = .next { s with master := s.master.resume } :=
  congrArg Host.Outcome.next (s.unlessReset_run _ awake)

/-- Each of the three ends of an attempt is an end by the rule of R66. -/
theorem exec_attemptEnds {s : State} (awake : s.inReset = false) {c : Instr}
    (ends : (∃ d, c = .idAttemptComplete d) ∨ c = .idNotAcknowledged ∨ c = .idArbitrationLost) :
    ∃ effect, exec c s = .next (s.attemptEnds effect) := by
  rcases ends with ⟨d, rfl⟩ | rfl | rfl
  · exact ⟨_, execIdAttemptComplete_run awake d⟩
  · exact ⟨_, execIdNotAcknowledged_run awake⟩
  · exact ⟨_, execIdArbitrationLost_run awake⟩

/-- A failed attempt below its limit counts and starts the wait, at the limit the lane faults (03, R62). -/
theorem State.countNack_waits {s : State} (i : Slot) (below : s.master.nacks < 2) :
    State.countNack i s = { s with master := { s.master with nacks := s.master.nacks + 1, phase := .waiting 1000 } } :=
  if_pos (show s.master.nacks + 1 < 3 by omega)

theorem State.countNack_faults {s : State} (i : Slot) (limit : s.master.nacks = 2) :
    State.countNack i s = s.endIdentification i ((s.lane i).moved .faulted (some .idUnreadable)) := by
  rw [← Lane.fault_eq]
  exact if_neg (show ¬ s.master.nacks + 1 < 3 by omega)

/-- The same for a lost arbitration (03, R63). -/
theorem State.countLoss_waits {s : State} (i : Slot) (below : s.master.losses < 7) :
    State.countLoss i s = { s with master := { s.master with losses := s.master.losses + 1, phase := .waiting 1000 } } :=
  if_pos (show s.master.losses + 1 < 8 by omega)

theorem State.countLoss_faults {s : State} (i : Slot) (limit : s.master.losses = 7) :
    State.countLoss i s = s.endIdentification i ((s.lane i).moved .faulted (some .idUnreadable)) := by
  rw [← Lane.fault_eq]
  exact if_neg (show ¬ s.master.losses + 1 < 8 by omega)

/-- The wait has run out. -/
theorem IdMaster.resume_due {m : IdMaster} (due : m.phase = .waiting 0) : m.resume = { m with phase := .attempt } := by
  rw [IdMaster.resume, due]
  exact if_pos rfl

/-- No wait has run out. -/
theorem IdMaster.resume_early {m : IdMaster} (early : m.phase ≠ .waiting 0) : m.resume = m := by
  rw [IdMaster.resume]
  split
  · next n e => exact if_neg fun zero => early (by rw [e, zero])
  · rfl
  · rfl

/-- Settles O28: the end of an attempt by what it was the end of, then by its outcome. -/
theorem identification_endsOrRetries : Obligations.Identification_EndsOrRetries := by
  refine ⟨fun s i rest d awake kept attempt fifo identifying => ?complete,
    fun s i rest awake kept fifo identifying => ?failed, fun s awake => ?wait, fun s c awake ends => ?discarded⟩
  case complete =>
    rw [execIdAttemptComplete_run awake, State.attemptEnds_head kept attempt fifo, State.completeAttempt,
      State.endIdentification_head kept fifo]
    refine ⟨fun valid => ?_, fun broken => ?_⟩
    · rw [Lane.identified_valid _ valid]
      rfl
    · rw [Lane.identified_invalid _ broken]
      rfl
  case failed =>
    rw [execIdNotAcknowledged_run awake, execIdArbitrationLost_run awake]
    refine ⟨fun attempt below => ?_, fun attempt limit => ?_, fun attempt below => ?_, fun attempt limit => ?_⟩ <;>
      rw [State.attemptEnds_head kept attempt fifo]
    · rw [State.countNack_waits i below]
    · rw [State.countNack_faults i limit, State.endIdentification_head kept fifo]
      rfl
    · rw [State.countLoss_waits i below]
    · rw [State.countLoss_faults i limit, State.endIdentification_head kept fifo]
      rfl
  case wait =>
    rw [execIdWaitExpiry_run awake]
    exact ⟨fun due => by rw [IdMaster.resume_due due], fun early => by rw [IdMaster.resume_early early]⟩
  case discarded =>
    obtain ⟨effect, run⟩ := exec_attemptEnds awake ends
    rw [run]
    exact ⟨fun abandoned => by rw [State.attemptEnds_abandoned abandoned],
      fun kept idle => by rw [State.attemptEnds_idle kept idle]⟩

/-! ### The units of the return pair (04, R77; 10, R203) -/

theorem checkMatches_iff (reply : List Byte) :
    checkMatches reply = true ↔ ∃ unit, reply = unit ++ [burstCheck unit] := by
  rw [checkMatches, beq_iff_eq]
  constructor
  · intro last
    exact ⟨reply.dropLast, (List.dropLast_append_getLast? _ last).symm⟩
  · rintro ⟨unit, rfl⟩
    simp

/-- What a unit read as a LOCKED is. -/
theorem readReply_eq_locked_iff (reply : List Byte) : readReply reply = some .locked ↔ reply = [2, burstCheck [2]] := by
  constructor
  · intro read
    unfold readReply at read
    split at read
    · next matched =>
      obtain ⟨unit, rfl⟩ := (checkMatches_iff reply).1 matched
      split at read
      · split at read <;> cases read
      · next code =>
        split at read
        · next two =>
          obtain ⟨a, rfl⟩ := List.length_eq_one_iff.1 (Nat.succ_injective (by simpa using two))
          have : a = 2 := (Byte.toNat_eq_iff a (by decide)).1 code
          rw [this]
          rfl
        · cases read
      · split at read <;> cases read
      · cases read
    · cases read
  · rintro rfl
    decide +kernel

/-- What a unit read as a PATTERN_RESULT is. -/
theorem readReply_eq_pattern_iff (reply : List Byte) (failures : Nat) :
    readReply reply = some (.pattern failures) ↔
      failures ≤ 64 ∧ reply = [3, BitVec.ofNat 8 failures, burstCheck [3, BitVec.ofNat 8 failures]] := by
  constructor
  · intro read
    unfold readReply at read
    split at read
    · next matched =>
      obtain ⟨unit, rfl⟩ := (checkMatches_iff reply).1 matched
      split at read
      · split at read <;> cases read
      · split at read <;> cases read
      · next code =>
        split at read
        · next three =>
          obtain ⟨a, b, rfl⟩ := List.length_eq_two.1 (Nat.succ_injective (by simpa using three.1))
          have kind : a = 3 := (Byte.toNat_eq_iff a (by decide)).1 code
          have count : b.toNat = failures := by cases read; rfl
          have small : failures ≤ 64 := count ▸ three.2
          have : b = BitVec.ofNat 8 failures := (Byte.toNat_eq_iff b (by omega)).1 count
          rw [← this, kind]
          exact ⟨small, rfl⟩
        · cases read
      · cases read
    · cases read
  · rintro ⟨small, rfl⟩
    have matched : checkMatches [3, BitVec.ofNat 8 failures, burstCheck [3, BitVec.ofNat 8 failures]] = true :=
      (checkMatches_iff _).2 ⟨[3, BitVec.ofNat 8 failures], rfl⟩
    have count : natAt [3, BitVec.ofNat 8 failures, burstCheck [3, BitVec.ofNat 8 failures]] 1 = failures :=
      (Byte.toNat_eq_iff _ (by omega)).2 rfl
    rw [readReply, if_pos matched]
    show (if _ then _ else _) = _
    rw [count, if_pos ⟨rfl, small⟩]

/-! ### Training steps (03, R67 to R71) -/

/-- A LOCKED passes an ALIGN step: the PATTERN step begins (03, R68 and R69). -/
theorem Lane.takeLocked_align {l : Lane} (aligning : l.state = .training ∧ l.step = some .align) :
    l.takeLocked =
      { l with
        step := some .pattern, alignTimer := none, replyTimer := none
        testsTaken := if l.tx.phase = .idle then 1 else 0
        tx := if l.tx.phase = .idle then l.tx.taken [.test] .training none else l.tx } := by
  rw [Lane.takeLocked, if_pos ((l.inStep_iff _).2 aligning), Lane.beginPattern, Lane.sendTest]
  by_cases idle : l.tx.phase = .idle
  · simp only [if_pos idle]
    rfl
  · simp only [if_neg idle]

/-- Outside an ALIGN step a LOCKED is ignored (03, R70). -/
theorem Lane.takeLocked_ignored {l : Lane} (other : ¬(l.state = .training ∧ l.step = some .align)) : l.takeLocked = l :=
  if_neg (mt (l.inStep_iff _).1 other)

/-- The PATTERN step waits for its reply (03, R69). -/
theorem Lane.awaitsPattern_iff (l : Lane) :
    (l.inStep .pattern && l.replyTimer.isSome) = true ↔
      l.state = .training ∧ l.step = some .pattern ∧ l.replyTimer.isSome = true := by
  rw [Bool.and_eq_true, Lane.inStep_iff, and_assoc]

/-- A PATTERN_RESULT of 0 or 1 passes training (03, R67 and R69). -/
theorem Lane.takePattern_passes {l : Lane} {failures : Nat}
    (waits : l.state = .training ∧ l.step = some .pattern ∧ l.replyTimer.isSome = true) (few : failures ≤ 1) :
    l.takePattern failures =
      { l with
        state := .ready, mark := true, step := none, alignTimer := none, replyTimer := none, tx := l.tx.cleared } := by
  rw [Lane.takePattern, if_pos (l.awaitsPattern_iff.2 waits), if_pos few, Lane.passTraining, Lane.abandon, waits.1]
  rfl

/-- A PATTERN_RESULT of two failures or more fails the attempt. -/
theorem Lane.takePattern_fails {l : Lane} {failures : Nat}
    (waits : l.state = .training ∧ l.step = some .pattern ∧ l.replyTimer.isSome = true) (many : 2 ≤ failures) :
    l.takePattern failures = l.failAttempt := by
  rw [Lane.takePattern, if_pos (l.awaitsPattern_iff.2 waits), if_neg (by omega)]

/-- A PATTERN_RESULT that no step waits for is ignored. -/
theorem Lane.takePattern_ignored {l : Lane} (failures : Nat)
    (other : ¬(l.state = .training ∧ l.step = some .pattern ∧ l.replyTimer.isSome = true)) : l.takePattern failures = l :=
  if_neg (mt l.awaitsPattern_iff.1 other)

theorem Lane.stepRanOut_iff (l : Lane) (step : TrainStep) (t : Timer) :
    (l.inStep step && Timer.ranOut t) = true ↔ l.state = .training ∧ l.step = some step ∧ t = some 0 := by
  rw [Bool.and_eq_true, Lane.inStep_iff, Timer.ranOut_iff, and_assoc]

/-- The first two attempts are followed by another (03, R67). -/
theorem Lane.failAttempt_again {l : Lane} (again : l.attempt < 3) : l.failAttempt = l.aligning (l.attempt + 1) :=
  (if_pos again).trans (l.beginAlign_attempt _)

/-- The third attempt is the last. -/
theorem Lane.failAttempt_last {l : Lane} (last : l.attempt = 3) : l.failAttempt = l.moved .faulted (some .trainFail) :=
  (if_neg (show ¬ l.attempt < 3 by omega)).trans (l.fault_eq _)

/-- What changes nothing outside reset changes nothing. -/
theorem State.unlessReset_same {s : State} {f : State → State} (same : f s = s) : s.unlessReset f = s := by
  rw [State.unlessReset, same, ite_self]

theorem execLocked_read {s : State} (awake : s.inReset = false) (i : Slot) {reply : List Byte}
    (read : readReply reply = some .locked) : exec (.locked i reply) s = .next (s.setLane i (s.lane i).takeLocked) := by
  refine congrArg Host.Outcome.next ((s.unlessReset_run _ awake).trans ?_)
  rw [read]

theorem execLocked_unread (s : State) (i : Slot) {reply : List Byte} (unread : readReply reply ≠ some .locked) :
    exec (.locked i reply) s = .next s := by
  refine congrArg Host.Outcome.next (State.unlessReset_same ?_)
  split
  · contradiction
  · rfl

theorem execPatternResult_read {s : State} (awake : s.inReset = false) (i : Slot) {reply : List Byte} {failures : Nat}
    (read : readReply reply = some (.pattern failures)) :
    exec (.patternResult i reply) s = .next (s.setLane i ((s.lane i).takePattern failures)) := by
  refine congrArg Host.Outcome.next ((s.unlessReset_run _ awake).trans ?_)
  rw [read]

theorem execPatternResult_unread (s : State) (i : Slot) {reply : List Byte}
    (unread : ∀ failures, readReply reply ≠ some (.pattern failures)) : exec (.patternResult i reply) s = .next s := by
  refine congrArg Host.Outcome.next (State.unlessReset_same ?_)
  split
  · next failures read => exact absurd read (unread failures)
  · rfl

theorem execAlignStepTimeout_run {s : State} (awake : s.inReset = false) (i : Slot) :
    exec (.alignStepTimeout i) s = .next (s.setLane i (s.lane i).alignExpired) :=
  congrArg Host.Outcome.next (s.unlessReset_run _ awake)

theorem execPatternReplyTimeout_run {s : State} (awake : s.inReset = false) (i : Slot) :
    exec (.patternReplyTimeout i) s = .next (s.setLane i (s.lane i).replyExpired) :=
  congrArg Host.Outcome.next (s.unlessReset_run _ awake)

/-- A lane event that leaves its lane as it is leaves the part as it is, in reset or not. -/
theorem State.unlessReset_setLane_same {s : State} {i : Slot} {f : Lane → Lane} (same : f (s.lane i) = s.lane i) :
    s.unlessReset (fun s => s.setLane i (f (s.lane i))) = s :=
  State.unlessReset_same (by rw [same, State.setLane_lane])

/-- The three ways in which a training attempt fails (03, R67 to R69). -/
theorem exec_failsAttempt {s : State} (awake : s.inReset = false) {i : Slot} (training : (s.lane i).state = .training)
    {c : Instr} {reply : List Byte} {failures : Nat}
    (fails : ((s.lane i).step = some .align ∧ (s.lane i).alignTimer = some 0 ∧ c = .alignStepTimeout i) ∨
      ((s.lane i).step = some .pattern ∧ (s.lane i).replyTimer = some 0 ∧ c = .patternReplyTimeout i) ∨
      ((s.lane i).step = some .pattern ∧ (s.lane i).replyTimer.isSome = true ∧ c = .patternResult i reply ∧
        readReply reply = some (.pattern failures) ∧ 2 ≤ failures)) :
    exec c s = .next (s.setLane i (s.lane i).failAttempt) := by
  rcases fails with ⟨step, due, rfl⟩ | ⟨step, due, rfl⟩ | ⟨step, waits, rfl, read, many⟩
  · rw [execAlignStepTimeout_run awake, Lane.alignExpired, if_pos ((Lane.stepRanOut_iff ..).2 ⟨training, step, due⟩)]
  · rw [execPatternReplyTimeout_run awake, Lane.replyExpired, if_pos ((Lane.stepRanOut_iff ..).2 ⟨training, step, due⟩)]
  · rw [execPatternResult_read awake i read, Lane.takePattern_fails ⟨training, step, waits⟩ many]

/-- Settles O29: each reply by what it reads as and the step it finds, each failure by the attempt it ends. -/
theorem training_stepsPassOrFail : Obligations.Training_StepsPassOrFail := by
  refine ⟨fun s i reply awake => ⟨fun read => ?locked, fun failures read => ?pattern, ?_, ?_⟩, fun reply => ⟨?_, ?_⟩,
    fun s i c reply failures awake training fails => ?fails, fun s i => ⟨fun early => ?_, fun early => ?_⟩⟩
  case locked =>
    rw [execLocked_read awake i read]
    refine ⟨fun aligning => ?_, fun other => ?_⟩
    · rw [Lane.takeLocked_align aligning]
      rfl
    · rw [Lane.takeLocked_ignored other, State.setLane_lane]
  case pattern =>
    rw [execPatternResult_read awake i read]
    refine ⟨fun ⟨training, step, waits, few⟩ => ?_, fun other => ?_⟩
    · rw [Lane.takePattern_passes ⟨training, step, waits⟩ few]
      rfl
    · rw [Lane.takePattern_ignored failures other, State.setLane_lane]
  case fails =>
    rw [exec_failsAttempt awake training fails]
    refine ⟨fun again => ?_, fun last => ?_⟩
    · rw [Lane.failAttempt_again again]
      rfl
    · rw [Lane.failAttempt_last last]
      rfl
  · exact execLocked_unread s i
  · exact execPatternResult_unread s i
  · exact readReply_eq_locked_iff reply
  · exact readReply_eq_pattern_iff reply
  · exact congrArg Host.Outcome.next
      (State.unlessReset_setLane_same (f := Lane.alignExpired) (if_neg (mt (Lane.stepRanOut_iff ..).1 early)))
  · exact congrArg Host.Outcome.next
      (State.unlessReset_setLane_same (f := Lane.replyExpired) (if_neg (mt (Lane.stepRanOut_iff ..).1 early)))

/-! ### The end of a transmission (04, R83) -/

/-- Only a lane that is sending has a transmission to end. -/
theorem Lane.sent_ignored {l : Lane} (other : l.tx.phase ≠ .sending) : l.sent = l := by
  unfold Lane.sent
  split
  · contradiction
  · rfl
  · rfl

/-- Outside TRAINING the acknowledgement is awaited (04, R83). -/
theorem Lane.sent_awaits {l : Lane} (sending : l.tx.phase = .sending) (other : l.state ≠ .training) :
    l.sent = { l with tx := { l.tx with phase := .awaiting, ackTimer := some 100 } } := by
  rw [Lane.sent, sending]
  exact if_neg other

/-- In TRAINING the burst is released (03, R68 and R69). -/
theorem Lane.sent_training {l : Lane} (sending : l.tx.phase = .sending) (training : l.state = .training) :
    l.sent = l.trainingSent := by
  rw [Lane.sent, sending]
  exact if_pos training

/-- The ALIGN step's next burst (03, R68; 04, R93). -/
theorem Lane.trainingSent_align {l : Lane} (step : l.step = some .align) :
    l.trainingSent = { l with tx := l.tx.taken (List.replicate 8 .align) .training none } := by
  simp only [Lane.trainingSent]
  rw [step]
  rfl

/-- The PATTERN step's next TEST burst (03, R69). -/
theorem Lane.trainingSent_test {l : Lane} (step : l.step = some .pattern) (more : l.testsTaken < 64) :
    l.trainingSent = { l with tx := l.tx.taken [.test] .training none, testsTaken := l.testsTaken + 1 } := by
  simp only [Lane.trainingSent]
  rw [step]
  exact if_pos more

/-- After the 64th TEST burst the reply timer starts (03, R69). -/
theorem Lane.trainingSent_last {l : Lane} (step : l.step = some .pattern) (done : 64 ≤ l.testsTaken) :
    l.trainingSent = { l with tx := l.tx.cleared, replyTimer := some 10000 } := by
  simp only [Lane.trainingSent]
  rw [step]
  exact if_neg (Nat.not_lt.2 done)

/-- Without a step nothing follows. -/
theorem Lane.trainingSent_none {l : Lane} (step : l.step = none) : l.trainingSent = { l with tx := l.tx.cleared } := by
  simp only [Lane.trainingSent]
  rw [step]
  rfl

theorem execTransmissionComplete_run {s : State} (awake : s.inReset = false) (i : Slot) :
    exec (.transmissionComplete i) s = .next (s.setLane i (s.lane i).sent) :=
  congrArg Host.Outcome.next (s.unlessReset_run _ awake)

/-- Settles O30: by the transmitter's phase, the lane's state and its training step. -/
theorem transmissionComplete_awaitsOrContinues : Obligations.TransmissionComplete_AwaitsOrContinues := by
  intro s i awake l
  rw [execTransmissionComplete_run awake]
  refine ⟨fun other => ?_, fun sending other => ?_, fun sending training step => ?_, fun sending training step more => ?_,
    fun sending training step done => ?_, fun sending training step => ?_⟩ <;> refine congrArg Host.Outcome.next ?_
  · rw [Lane.sent_ignored other, State.setLane_lane]
  · exact congrArg (s.setLane i) (Lane.sent_awaits sending other)
  · exact congrArg (s.setLane i) ((Lane.sent_training sending training).trans (Lane.trainingSent_align step))
  · exact congrArg (s.setLane i) ((Lane.sent_training sending training).trans (Lane.trainingSent_test step more))
  · exact congrArg (s.setLane i) ((Lane.sent_training sending training).trans (Lane.trainingSent_last step done))
  · exact congrArg (s.setLane i) ((Lane.sent_training sending training).trans (Lane.trainingSent_none step))

/-! ### The failure of a burst (04, R85 and R86) -/

theorem Transmitter.awaited_of_awaiting {t : Transmitter} (awaiting : t.phase = .awaiting) : t.awaited = t.outstanding := by
  rw [Transmitter.awaited, awaiting]

/-- An acknowledgement of CHECK_FAIL, or one without the digest owed, does not retire the burst (04, R85). -/
theorem Burst.retiredBy_eq_false {b : Burst} {ok : Bool} {digest : Option Word32}
    (fails : ok = false ∨ (digest = none ∧ ∃ f, b.frames.getLast? = some f ∧ f.asksDigest = true)) :
    b.retiredBy ok digest = false := by
  rcases fails with rfl | ⟨rfl, f, last, asks⟩
  · rfl
  · simp [Burst.retiredBy, Burst.owesDigest, last, asks]

/-- A timer that has run out and a refusing acknowledgement are a failure of the awaited burst (04, R85 and R86). -/
theorem exec_failsBurst {s : State} (awake : s.inReset = false) {i : Slot} {b : Burst}
    (awaited : (s.lane i).tx.awaited = some b) {c : Instr} {reply : List Byte} {ok : Bool} {digest : Option Word32}
    (fails : (c = .ackTimeout i ∧ (s.lane i).tx.ackTimer = some 0) ∨
      (c = .burstAck i reply ∧ readReply reply = some (.ack b.seq ok digest) ∧
        (ok = false ∨ (digest = none ∧ ∃ f, b.frames.getLast? = some f ∧ f.asksDigest = true)))) :
    exec c s = .next (s.failBurst i b) := by
  rcases fails with ⟨rfl, due⟩ | ⟨rfl, read, refuses⟩
  · have expired : s.ackExpired i = s.failBurst i b := by
      rw [State.ackExpired, awaited]
      exact if_pos ((Timer.ranOut_iff _).2 due)
    exact congrArg Host.Outcome.next ((s.unlessReset_run _ awake).trans expired)
  · have refused : s.takeAck i b.seq ok digest = s.failBurst i b := by
      rw [State.takeAck, awaited]
      exact (if_pos rfl).trans (if_neg (Bool.eq_false_iff.1 (Burst.retiredBy_eq_false refuses)))
    refine congrArg Host.Outcome.next ((s.unlessReset_run _ awake).trans ?_)
    rw [read]
    exact refused

/-- The first three failures send the burst again (04, R86). -/
theorem State.failBurst_resends {s : State} (i : Slot) {b : Burst} (few : b.resends < 3) :
    s.failBurst i b = s.setLane i { s.lane i with tx := (s.lane i).tx.resend b } := by
  rw [State.failBurst]
  exact if_pos (decide_eq_true few)

/-- The fourth is a failure of the link. -/
theorem State.failBurst_last {s : State} (i : Slot) {b : Burst} (last : b.resends = 3) :
    s.failBurst i b = s.linkFailure i := by
  rw [State.failBurst]
  exact if_neg (by rw [Burst.mayResend, last]; decide)

/-- The link of a LIVE lane fails (03, R56). -/
theorem State.linkFailure_live {s : State} {i : Slot} (live : (s.lane i).state = .live) :
    s.linkFailure i = s.setLane i ((s.lane i).moved .faulted (some .linkErrors)) := by
  simp only [State.linkFailure, live]
  rw [Lane.fault_eq]

/-- The link of a LOADING lane fails, its job with it (06, R141). -/
theorem State.linkFailure_loading {s : State} {i : Slot} (loading : (s.lane i).state = .loading) {j : JobNo} {job : Job}
    (target : s.TargetedBy i j) (hj : s.job j = some job) (unique : ∀ k, s.TargetedBy i k → k = j) :
    s.linkFailure i = (s.setLane i ((s.lane i).moved .faulted (some .linkErrors))).jobLost j job .laneFault := by
  simp only [State.linkFailure, loading]
  rw [Lane.fault_eq]
  have out : ((s.setLane i ((s.lane i).moved .faulted (some .linkErrors))).lane i).state ≠ .loading := by
    rw [State.lane_setLane_self]
    exact show LaneState.faulted ≠ .loading by decide
  exact State.failJobOn_eq out target hj unique _

/-- Settles O32: every failure is one of the awaited burst, which its count of resends decides. -/
theorem burstFailure_resendsThenFaults : Obligations.BurstFailure_ResendsThenFaults := by
  intro s i c reply ok digest b awake awaiting outstanding fails l dead
  rw [exec_failsBurst awake ((Transmitter.awaited_of_awaiting awaiting).trans outstanding) fails]
  refine ⟨fun few => ?_, fun last live => ?_, fun j job last loading target hj unique => ?_⟩
  · rw [State.failBurst_resends i few]
    rfl
  · rw [State.failBurst_last i last, State.linkFailure_live live]
    rfl
  · rw [State.failBurst_last i last, State.linkFailure_loading loading target hj unique]
    rfl

end Sys2Proof.Machine
end

section
/-! SUPPORT. The transmitters and the grant, command by command (04, R78 to R89; 06, R124 to R129): all that a command can do to a
lane's transmitter and to the frames of the grant, and from it that both stay sound and that a number goes with each burst. -/

namespace Sys2Proof.Machine

/-! ### What a transmitter does -/

/-- What one command can make of a transmitter that may take the bursts in `given`. -/
inductive Transmitter.Moves (given : List Frame → Prop) (t : Transmitter) : Transmitter → Prop
  /-- Nothing happens to it. -/
  | same : Transmitter.Moves given t t
  /-- The outstanding burst is given up (04, R84, R86 and R89). -/
  | released : Transmitter.Moves given t t.release
  /-- A burst is taken (04, R82). -/
  | takes (frames : List Frame) (client : Client) (snapshot : Option Word32) (h : given frames) :
      Transmitter.Moves given t (t.take frames client snapshot)
  /-- A transmission has left and the acknowledgement is awaited (04, R83). -/
  | awaits (h : t.phase = .sending) : Transmitter.Moves given t t.await
  /-- The outstanding burst is sent again (04, R86). -/
  | resends (b : Burst) (h : t.awaited = some b) (h' : b.mayResend = true) : Transmitter.Moves given t (t.resend b)

/-- The bursts that may be handed over to a lane's transmitter (04, R78): the training steps', the head of the apply queue, and the
frames of the grant. -/
inductive Lane.Gives (l : Lane) (grant : Option Grant) : List Frame → Prop
  | align : Lane.Gives l grant (List.replicate 8 .align)
  | test : Lane.Gives l grant [.test]
  | queue (h : l.live.queue ≠ []) : Lane.Gives l grant ((takeEntries 8 l.live.queue).1.map ApplyEntry.frame)
  | grant (g : Grant) (hg : grant = some g) (h : g.frames ≠ []) : Lane.Gives l grant g.frames

/-- The transmitter is left as it was, or gives up its burst. -/
def Transmitter.Rests (t u : Transmitter) : Prop := u = t ∨ u = t.release

theorem Transmitter.Rests.moves {t u : Transmitter} (h : Transmitter.Rests t u) {given : List Frame → Prop} :
    Transmitter.Moves given t u := by
  rcases h with rfl | rfl
  · exact .same
  · exact .released

/-- A burst given up twice is given up once. -/
theorem Transmitter.Rests.trans {t u v : Transmitter} (h : Transmitter.Rests t u) (h' : Transmitter.Rests u v) :
    Transmitter.Rests t v := by
  rcases h with rfl | rfl
  · exact h'
  · exact h'.elim (fun e => .inr e) (fun e => .inr e)

/-- A lane that leaves its state gives up its burst, if it is in a state that sends any. -/
theorem Lane.stripped_tx (l : Lane) : Transmitter.Rests l.tx l.stripped.tx := by
  unfold Lane.stripped
  simp only []
  split
  · exact .inr rfl
  · exact .inl rfl

theorem Lane.vacate_tx (l : Lane) (cause : Option LaneCause) : Transmitter.Rests l.tx (l.vacate cause).tx := by
  rw [Lane.vacate_eq]
  exact l.stripped_tx

theorem Lane.identify_tx (l : Lane) : Transmitter.Rests l.tx l.identify.tx := by
  rw [Lane.identify_eq]
  exact l.stripped_tx

theorem Lane.extract_tx (l : Lane) : Transmitter.Rests l.tx l.extract.tx := by
  rw [Lane.extract_eq]
  exact l.stripped_tx

theorem Lane.fault_tx (l : Lane) (cause : LaneCause) : Transmitter.Rests l.tx (l.fault cause).tx := by
  rw [Lane.fault_eq]
  exact l.stripped_tx

theorem Lane.ready_tx (l : Lane) : Transmitter.Rests l.tx (l.abandon.goto .ready).tx := by
  rw [Lane.abandon_goto_keep]
  exact l.stripped_tx

/-- The end of its job releases a LOADING lane's transmitter, but for a cut-over. -/
theorem Lane.jobEnded_tx (l : Lane) (outcome : JobState) (interval : Nat) :
    Transmitter.Rests l.tx (l.jobEnded outcome interval).tx := by
  unfold Lane.jobEnded
  split
  · split
    · exact .inl rfl
    · exact l.ready_tx
  · exact .inl rfl

/-! ### Training and fills -/

/-- The start of an ALIGN step hands its first burst over when the transmitter is IDLE. -/
theorem Lane.aligning_tx {given : List Frame → Prop} (align : given (List.replicate 8 .align)) (l : Lane) (attempt : Nat) :
    Transmitter.Moves given l.tx (l.aligning attempt).tx := by
  unfold Lane.aligning
  simp only []
  split
  · exact .takes _ .training none align
  · exact .same

theorem Lane.sendTest_tx {given : List Frame → Prop} (test : given [.test]) (l : Lane) :
    Transmitter.Moves given l.tx l.sendTest.tx := by
  unfold Lane.sendTest
  split
  · exact .takes _ .training none test
  · exact .same

section
variable {grant : Option Grant}

theorem Lane.failAttempt_tx (l : Lane) : Transmitter.Moves (l.Gives grant) l.tx l.failAttempt.tx := by
  unfold Lane.failAttempt
  split
  · rw [Lane.beginAlign_attempt]
    exact l.aligning_tx .align _
  · exact (l.fault_tx _).moves

theorem Lane.identified_tx (l : Lane) (descriptor : Vector Byte 16) :
    Transmitter.Moves (l.Gives grant) l.tx (l.identified descriptor).tx := by
  unfold Lane.identified
  split
  · next facts _ =>
    rw [Lane.train, Lane.beginAlign_eq]
    exact Lane.aligning_tx .align { l.goto .training with facts := some facts, attempt := 1 } 1
  · exact (l.fault_tx _).moves

/-- The end of a transmission in TRAINING: the step's next burst is taken, or none. -/
theorem Lane.trainingSent_tx (l : Lane) : Transmitter.Moves (l.Gives grant) l.tx l.trainingSent.tx := by
  rcases step : l.step with _ | (_ | _)
  · rw [Lane.trainingSent_none step]
    exact .released
  · rw [Lane.trainingSent_align step]
    exact .takes _ .training none .align
  · rcases Nat.lt_or_ge l.testsTaken 64 with more | done
    · rw [Lane.trainingSent_test step more]
      exact .takes _ .training none .test
    · rw [Lane.trainingSent_last step done]
      exact .released

theorem Lane.sent_tx (l : Lane) : Transmitter.Moves (l.Gives grant) l.tx l.sent.tx := by
  unfold Lane.sent
  split
  · next sending =>
    split
    · exact l.trainingSent_tx
    · exact .awaits sending
  · exact .same
  · exact .same

/-- A fill takes the head of the queue. -/
theorem Lane.fill_tx (store : Store) (set : Settings) (l : Lane) :
    Transmitter.Moves (l.Gives grant) l.tx (l.fill store set).tx := by
  unfold Lane.fill
  split
  · next may =>
    have waiting : l.live.queue ≠ [] := by
      simp only [Lane.mayFill, Bool.and_eq_true] at may
      simpa using may.2
    rw [((l.dequeue.testClear_front set).trans (Lane.repairStep_front store set _)).tx]
    exact .takes _ .applyQueue _ (.queue waiting)
  · exact .same

/-- Each event of a lane alone is a move of its transmitter. -/
theorem Lane.Turns.tx_moves {store : Store} {set : Settings} {k l : Lane} (event : Lane.Turns store set k l) :
    Transmitter.Moves (k.Gives grant) k.tx l.tx := by
  cases event with
  | unmark => exact .same
  | sent => exact k.sent_tx
  | alignExpired =>
    unfold Lane.alignExpired
    split
    · exact k.failAttempt_tx
    · exact .same
  | replyExpired =>
    unfold Lane.replyExpired
    split
    · exact k.failAttempt_tx
    · exact .same
  | locked =>
    unfold Lane.takeLocked
    split
    · exact Lane.sendTest_tx .test { k with step := some .pattern, alignTimer := none, replyTimer := none, testsTaken := 0 }
    · exact .same
  | pattern failures =>
    unfold Lane.takePattern
    split
    · split
      · exact k.ready_tx.moves
      · exact k.failAttempt_tx
    · exact .same
  | fill => exact k.fill_tx store set
  | audit =>
    rw [(k.auditTick_front store set).tx]
    exact .same
  | rise => exact .same
  | close => exact .same
  | fallEmpty => exact .same
  | fallExtracting => exact (Lane.vacate_tx { k with present := false } _).moves
  | fall => exact (Lane.vacate_tx { k with present := false } _).moves
  | openOut => exact .same
  | extract => exact (Lane.extract_tx { k with lever := false }).moves
  | resetOut => exact (k.vacate_tx none).moves
  | release => exact k.ready_tx.moves
  | clearAlarm => exact .same
  | retireTraining => exact .released
  | retireLive =>
    rw [(Lane.retiredLive_front ..).tx]
    exact .released
  | resend b awaited may => exact .resends b awaited may
  | linkFault => exact (k.fault_tx _).moves
  | dropBurst => exact .released

end

/-! ### What a job's event leaves of lanes and grant -/

/-- Every lane has seen its job end at most, and the frames of a grant are those of one before. -/
structure State.JobEvent (s t : State) : Prop where
  lanes : ∀ i, t.lane i = s.lane i ∨ ∃ outcome, t.lane i = (s.lane i).jobEnded outcome s.settings.interval
  settings : t.settings = s.settings
  grant : ∀ g ∈ t.grant, ∃ g' ∈ s.grant, g'.frames = g.frames

theorem State.JobEvent.refl (s : State) : State.JobEvent s s := ⟨fun _ => .inl rfl, rfl, fun g hg => ⟨g, hg, rfl⟩⟩

/-- A lane that its job's end has taken out of LOADING is left by any further end. -/
theorem Lane.jobEnded_jobEnded (l : Lane) (outcome other : JobState) (interval : Nat) :
    (l.jobEnded outcome interval).jobEnded other interval = l.jobEnded outcome interval := by
  by_cases loading : l.state = .loading
  · refine Lane.jobEnded_of_ne ?_ other interval
    rw [Lane.jobEnded, if_pos loading]
    split <;> simp [Lane.enterLive, Lane.goto]
  · simp only [Lane.jobEnded_of_ne loading]

theorem State.JobEvent.trans {s t u : State} (h : State.JobEvent s t) (h' : State.JobEvent t u) : State.JobEvent s u := by
  refine ⟨fun i => ?_, h'.settings.trans h.settings, fun g hg => ?_⟩
  · have lane := h'.lanes i
    rw [h.settings] at lane
    rcases h.lanes i with e | ⟨outcome, e⟩ <;> rw [e] at lane
    · exact lane
    · refine .inr ⟨outcome, lane.elim id fun ⟨other, e'⟩ => ?_⟩
      rw [e', Lane.jobEnded_jobEnded]
  · obtain ⟨g', hg', e'⟩ := h'.grant g hg
    obtain ⟨g'', hg'', e''⟩ := h.grant g' hg'
    exact ⟨g'', hg'', e''.trans e'⟩

theorem State.jobEvent_setJob (s : State) (j : JobNo) (e : Option Job) : State.JobEvent s (s.setJob j e) :=
  ⟨fun _ => .inl rfl, rfl, fun g hg => ⟨g, hg, rfl⟩⟩

theorem State.jobEvent_closeGrant (s : State) (j : JobNo) : State.JobEvent s (s.closeGrant j) := by
  unfold State.closeGrant
  split
  · next g hg =>
    split
    · refine ⟨fun _ => .inl rfl, rfl, fun x hx => ⟨g, hg, ?_⟩⟩
      rw [← Option.some.inj hx]
    · exact .refl s
  · exact .refl s

theorem State.jobEvent_endJob (s : State) (j : JobNo) (outcome : JobState) : State.JobEvent s (s.endJob j outcome) := by
  rcases hj : s.job j with _ | job
  · rw [State.endJob, hj]
    exact .refl s
  · rw [State.endJob_eq hj]
    refine ⟨fun i => ?_, rfl, fun g hg => ⟨g, (State.mem_grant_of_ended hg).1, rfl⟩⟩
    have lane := s.lane_setLane job.slot i ((s.lane job.slot).jobEnded outcome s.settings.interval)
    by_cases e : i = job.slot
    · rw [if_pos e, ← e] at lane
      exact .inr ⟨outcome, e ▸ lane⟩
    · exact .inl (lane.trans (if_neg e))

/-- A change of a job's entry and its end. -/
theorem State.jobEvent_setJob_endJob (s : State) (j : JobNo) (e : Option Job) (outcome : JobState) :
    State.JobEvent s ((s.setJob j e).endJob j outcome) :=
  (s.jobEvent_setJob j e).trans (State.jobEvent_endJob _ j outcome)

theorem State.JobMoves.jobEvent {s t : State} {j : JobNo} {job : Job} {q : Prop} (m : State.JobMoves s j job q t) :
    State.JobEvent s t := by
  cases m with
  | same => exact .refl s
  | keeps after => exact s.jobEvent_setJob j _
  | ends last outcome => exact s.jobEvent_setJob_endJob j _ outcome

theorem State.jobEvent_endOfWork (s : State) (j : JobNo) : State.JobEvent s (s.endOfWork j) := by
  rcases hj : s.job j with _ | job
  · rw [State.endOfWork, hj]
    exact .refl s
  · exact (State.endOfWork_moves hj).jobEvent

theorem State.jobEvent_endRound (s : State) (j : JobNo) (job : Job) : State.JobEvent s (s.endRound j job) := by
  unfold State.endRound
  simp only []
  split
  · exact s.jobEvent_setJob_endJob j _ _
  · split
    · exact s.jobEvent_setJob j _
    · exact s.jobEvent_setJob_endJob j _ _

theorem State.jobEvent_verifyAnswer (s : State) (j : JobNo) (job : Job) (segment : Nat) (digest : Word32) :
    State.JobEvent s (s.verifyAnswer j job segment digest) := by
  unfold State.verifyAnswer
  simp only []
  split
  · exact s.jobEvent_endRound j _
  · exact s.jobEvent_setJob j _

theorem State.jobEvent_reportRetired (s : State) (j : JobNo) (frames : List Frame) (digest : Option Word32) :
    State.JobEvent s (s.reportRetired j frames digest) := by
  have drained : ∀ job, State.JobEvent s ((s.setJob j (some job)).endOfWork j) :=
    fun job => (s.jobEvent_setJob j _).trans (State.jobEvent_endOfWork _ j)
  unfold State.reportRetired
  split
  · exact .refl s
  · simp only []
    split
    · exact s.jobEvent_setJob j _
    · exact drained _
    · exact drained _
    · exact drained _
    · split
      · exact s.jobEvent_verifyAnswer j ..
      · exact s.jobEvent_setJob j _
    all_goals exact .refl s

/-- A job's event gives up bursts at most. -/
theorem State.JobEvent.tx {s t : State} (h : State.JobEvent s t) (i : Slot) :
    Transmitter.Rests (s.lane i).tx (t.lane i).tx := by
  rcases h.lanes i with e | ⟨outcome, e⟩
  · exact .inl (congrArg Lane.tx e)
  · rw [e]
    exact Lane.jobEnded_tx ..

/-! ### What the grant collects -/

/-- The frames that a grant can have after a command, by the store, the jobs and the grant before it. -/
inductive Grant.Builds (store : Store) (job : JobNo → Option Job) (before : Option Grant) : List Frame → Prop
  /-- A grant that was there keeps its frames. -/
  | keeps (g : Grant) (hg : before = some g) : Grant.Builds store job before g.frames
  /-- It takes the frame of a row under the sweep cursor or of the dirty set (06, R129 and R137). -/
  | reads (g : Grant) (after : Job) (row : Nat) (frame : Frame) (hg : before = some g) (hj : job g.job = some after)
      (few : g.frames.length < 8) (named : row < store.size ∨ row ∈ after.dirty)
      (hf : frame = .clear row ∨ ∃ enc, frame = .write row enc) : Grant.Builds store job before (g.frames ++ [frame])
  /-- It begins without a frame. -/
  | opens : Grant.Builds store job before []
  /-- It begins with the WIPE (06, R128). -/
  | wipes : Grant.Builds store job before [.wipe]
  /-- It begins with a VERIFY of a segment of the store (07, R166). -/
  | verifies (segment : Nat) (h : segment < store.size / 4096) : Grant.Builds store job before [.verify segment]

/-- All that a command but for a reset does to the transmitters and to the frames of the grant. -/
structure State.LinkSteps (s t : State) : Prop where
  lanes : ∀ i, Transmitter.Moves ((s.lane i).Gives s.grant) (s.lane i).tx (t.lane i).tx
  grant : ∀ g ∈ t.grant, Grant.Builds s.store s.job s.grant g.frames

/-- What a reset leaves of them (04, R96; 06, R147). -/
structure State.LinksReset (t : State) : Prop where
  lanes : ∀ i, t.lane i = Lane.reset
  grant : t.grant = none

/-- The grant keeps its frames. -/
theorem Grant.Builds.of_kept {s t : State} (kept : ∀ g ∈ t.grant, ∃ g' ∈ s.grant, g'.frames = g.frames) :
    ∀ g ∈ t.grant, Grant.Builds s.store s.job s.grant g.frames := by
  intro g hg
  obtain ⟨g', hg', e⟩ := kept g hg
  exact e ▸ .keeps g' hg'

/-- Bursts are given up at most, and the grant keeps its frames. -/
theorem State.LinkSteps.of_rests {s t : State} (lanes : ∀ i, Transmitter.Rests (s.lane i).tx (t.lane i).tx)
    (kept : ∀ g ∈ t.grant, ∃ g' ∈ s.grant, g'.frames = g.frames) : State.LinkSteps s t :=
  ⟨fun i => (lanes i).moves, Grant.Builds.of_kept kept⟩

/-- The transmitters and the grant are left. -/
theorem State.LinkSteps.of_kept {s t : State} (lanes : ∀ i, (t.lane i).tx = (s.lane i).tx) (grant : t.grant = s.grant) :
    State.LinkSteps s t :=
  .of_rests (fun i => .inl (lanes i)) fun g hg => ⟨g, grant ▸ hg, rfl⟩

/-- A job's event. -/
theorem State.JobEvent.linkSteps {s t : State} (h : State.JobEvent s t) : State.LinkSteps s t := .of_rests h.tx h.grant

/-- One lane's transmitter moves. -/
theorem State.LinkSteps.setLane {s t : State} {i : Slot} {l : Lane}
    (moves : Transmitter.Moves ((s.lane i).Gives s.grant) (s.lane i).tx l.tx) (lanes : t.lanes = (s.setLane i l).lanes)
    (kept : ∀ g ∈ t.grant, ∃ g' ∈ s.grant, g'.frames = g.frames) : State.LinkSteps s t := by
  refine ⟨fun k => ?_, Grant.Builds.of_kept kept⟩
  have lane : t.lane k = (s.setLane i l).lane k := congrArg (fun v : Vector Lane 16 => v[k]) lanes
  rw [lane]
  by_cases e : k = i
  · subst e
    rwa [State.lane_setLane_self]
  · rw [State.lane_setLane_of_ne s l e]
    exact .same

/-! ### The arbiter -/

/-- The frames a grant begins with, of a job that has work. -/
theorem Job.openingFrames_builds {store : Store} {j : Job} (work : j.hasWork store = true) (job : JobNo → Option Job)
    (before : Option Grant) : Grant.Builds store job before j.openingFrames := by
  unfold Job.openingFrames
  split
  · exact .wipes
  · next verify =>
    rw [Job.hasWork, verify] at work
    exact .verifies _ (of_decide_eq_true work)
  · exact .opens

/-- The arbiter's choice after a change of transmitters and grant. -/
theorem State.LinkSteps.arbitrate {s t : State} (h : State.LinkSteps s t) (size : t.store.size = s.store.size) :
    State.LinkSteps s t.arbitrate := by
  refine ⟨fun i => by rw [State.arbitrate_lane]; exact h.lanes i, fun g hg => ?_⟩
  rcases t.arbitrate_cases with ⟨e, _⟩ | ⟨k, job, fp, lp, _, eligible, hj, e⟩ <;> rw [e] at hg
  · exact h.grant g hg
  · obtain rfl := Option.some.inj hg
    obtain ⟨other, hj', _, work, _⟩ := State.eligible_working eligible
    obtain rfl : other = job := Option.some.inj (hj'.symm.trans hj)
    have same : other.hasWork s.store = other.hasWork t.store := by
      unfold Job.hasWork Store.segments
      rw [size]
    exact Job.openingFrames_builds (same ▸ work) ..

/-! ### Every command -/

/-- An event of jobs after one lane has given up its burst at most. -/
theorem State.JobEvent.linkSteps_setLane {s t : State} {i : Slot} {l : Lane} (rests : Transmitter.Rests (s.lane i).tx l.tx)
    (h : State.JobEvent (s.setLane i l) t) : State.LinkSteps s t := by
  refine .of_rests (fun k => Transmitter.Rests.trans ?_ (h.tx k)) h.grant
  by_cases e : k = i
  · subst e
    rwa [State.lane_setLane_self]
  · exact .inl (congrArg Lane.tx (s.lane_setLane_of_ne l e))

/-- A lane gives up its burst at most, and the job on it fails (06, R140 and R141). -/
theorem State.linkSteps_loses {s : State} {i : Slot} {l : Lane} (rests : Transmitter.Rests (s.lane i).tx l.tx)
    (cause : JobCause) : State.LinkSteps s ((s.setLane i l).failJobOn i cause) := by
  unfold State.failJobOn
  split
  · exact ((State.jobEvent_endJob _ _ _).linkSteps_setLane rests).arbitrate (by simp)
  · exact .setLane rests.moves rfl fun g hg => ⟨g, hg, rfl⟩

/-- An admitted change (02, R32). -/
theorem State.linkSteps_applyChange (s : State) {store : Store} (size : store.size = s.store.size) (k : Kind) (row : Nat)
    (entry : Profile → Option ApplyEntry) : State.LinkSteps s (s.applyChange store k row entry) := by
  refine State.LinkSteps.arbitrate (.of_kept (fun i => ?_) rfl) size
  rw [State.mapJobs_lane, State.lane_mapLanes]
  exact (Lane.feed_front ..).tx

/-- A sweep's examination (06, R129). -/
theorem State.linkSteps_examineRow (s : State) : State.LinkSteps s s.examineRow := by
  have same : State.LinkSteps s s := .of_kept (fun _ => rfl) rfl
  unfold State.examineRow
  split
  · next g job e =>
    obtain ⟨hg, hj⟩ := State.grantJob_some e
    split
    · next may =>
      simp only [Grant.maySweep, Bool.and_eq_true, decide_eq_true_eq] at may
      obtain ⟨⟨⟨_, few⟩, _⟩, inside⟩ := may
      refine ⟨fun _ => .same, fun x hx => ?_⟩
      obtain rfl := Option.some.inj hx
      rcases frame : rowFrame s.store job.profile job.sweepCursor with _ | f
      · simpa [frame] using Grant.Builds.keeps g hg
      · refine .reads g job job.sweepCursor f hg hj few (.inl inside) (.inr ?_)
        unfold rowFrame at frame
        split at frame
        · split at frame
          · exact ⟨_, (Option.some.inj frame).symm⟩
          · cases frame
        · cases frame
    · exact same
  · exact same

/-- A drain's taking of a row (06, R137). -/
theorem State.linkSteps_takeRow (s : State) : State.LinkSteps s s.takeRow := by
  have same : State.LinkSteps s s := .of_kept (fun _ => rfl) rfl
  unfold State.takeRow
  split
  · next g job e =>
    obtain ⟨hg, hj⟩ := State.grantJob_some e
    split
    · next row found =>
      unfold Grant.mayDrain at found
      split at found
      · next may =>
        refine ⟨fun _ => .same, fun x hx => ?_⟩
        obtain rfl := Option.some.inj hx
        refine .reads g job row _ hg hj may.2.2 (.inr (Job.nextDirty_mem found).1) ?_
        unfold rowFrame
        split
        · split
          · exact .inr ⟨_, rfl⟩
          · exact .inl rfl
        · exact .inl rfl
      · cases found
    · exact same
  · exact same

/-- A grant's end, in its two forms, or nothing (06, R124). -/
theorem State.completeGrant_cases (s : State) :
    s.completeGrant = s ∨ ∃ g job, s.grant = some g ∧ s.job g.job = some job ∧
      ((g.frames = [] ∧ s.completeGrant = ({ s with grant := none }.endOfWork g.job).arbitrate) ∨
        (g.frames ≠ [] ∧ s.completeGrant = ({ s with grant := none }.handOver g job).arbitrate)) := by
  unfold State.completeGrant
  split
  · next g job e =>
    obtain ⟨hg, hj⟩ := State.grantJob_some e
    split
    · simp only []
      split
      · next empty => exact .inr ⟨g, job, hg, hj, .inl ⟨empty, rfl⟩⟩
      · next filled => exact .inr ⟨g, job, hg, hj, .inr ⟨filled, rfl⟩⟩
    · exact .inl rfl
  · exact .inl rfl

theorem State.linkSteps_completeGrant (s : State) : State.LinkSteps s s.completeGrant := by
  rcases s.completeGrant_cases with e | ⟨g, job, hg, _, ⟨_, e⟩ | ⟨filled, e⟩⟩ <;> rw [e]
  · exact .of_kept (fun _ => rfl) rfl
  · have event := State.jobEvent_endOfWork { s with grant := none } g.job
    refine State.LinkSteps.arbitrate (.of_rests event.tx fun x hx => ?_) (by simp)
    obtain ⟨_, absent, _⟩ := event.grant x hx
    cases absent
  · exact State.LinkSteps.arbitrate
      (.setLane (.takes _ (.job g.job) none (.grant g hg filled)) rfl fun x hx => nomatch hx) rfl

/-- A freeze timer's expiry is an event of its job followed by the arbiter's choice, or nothing (07, R163 and R164). -/
theorem State.freezeExpired_cases (s : State) (j : JobNo) :
    s.freezeExpired j = s ∨ ∃ u, State.JobEvent s u ∧ u.store = s.store ∧ s.freezeExpired j = u.arbitrate := by
  unfold State.freezeExpired
  split
  · split
    · split
      · exact .inr ⟨_, ((s.jobEvent_setJob j _).trans (State.jobEvent_closeGrant _ j)).trans
          (State.jobEvent_endOfWork _ j), by simp, rfl⟩
      · exact .inr ⟨_, s.jobEvent_setJob_endJob j _ _, by simp, rfl⟩
    · exact .inl rfl
  · exact .inl rfl

theorem State.linkSteps_freezeExpired (s : State) (j : JobNo) : State.LinkSteps s (s.freezeExpired j) := by
  rcases s.freezeExpired_cases j with e | ⟨u, event, store, e⟩ <;> rw [e]
  · exact .of_kept (fun _ => rfl) rfl
  · exact event.linkSteps.arbitrate (congrArg Store.size store)

/-- The moves of `State.Moves` as moves of transmitters and grant. -/
theorem State.Moves.linkSteps {c : Instr} {s t : State} (m : State.Moves c s t) :
    ((c = .softReset ∨ c = .powerOn ∨ c = .resetPinAssert ∨ c = .resetEnd) ∧ State.LinksReset t) ∨
      State.LinkSteps s t := by
  cases m with
  | reset store settings _ resets => exact .inl ⟨resets, ⟨fun i => by simp [State.lane, State.resetBlocks], rfl⟩⟩
  | same => exact .inr (.of_kept (fun _ => rfl) rfl)
  | begins => exact .inr (.of_kept (fun _ => rfl) rfl)
  | completes => exact .inr (.of_kept (fun _ => rfl) rfl)
  | inserts => exact .inr (s.linkSteps_applyChange (by simp) ..)
  | updates => exact .inr (s.linkSteps_applyChange (by simp) ..)
  | retires => exact .inr (s.linkSteps_applyChange (by simp) ..)
  | setting => exact .inr (.of_kept (fun _ => rfl) rfl)
  | setAudit interval =>
    refine .inr (.of_kept (fun i => ?_) rfl)
    rw [State.lane_mapLanes]
    exact (Lane.restartAudit_front ..).tx
  | turn i l event => exact .inr (.setLane event.tx_moves rfl fun g hg => ⟨g, hg, rfl⟩)
  | identifies i present =>
    simp only [State.identify, State.lane_setLane_self, State.setLane_setLane, State.setLane_master]
    exact .inr (.setLane (Lane.identify_tx { s.lane i with present, lever := true }).moves rfl fun g hg => ⟨g, hg, rfl⟩)
  | unidentifies i l _ departure =>
    have rests : Transmitter.Rests (s.lane i).tx l.tx := by
      rcases departure with rfl | ⟨rfl, _⟩
      · exact Lane.vacate_tx { s.lane i with present := false } _
      · exact Lane.extract_tx { s.lane i with lever := false }
    exact .inr (.setLane rests.moves rfl fun g hg => ⟨g, hg, rfl⟩)
  | identified i l _ ending =>
    refine .inr (.setLane (l := l) ?_ rfl fun g hg => ⟨g, hg, rfl⟩)
    rcases ending with rfl | ⟨d, rfl⟩
    · exact (Lane.fault_tx _ _).moves
    · exact Lane.identified_tx _ d
  | masters => exact .inr (.of_kept (fun _ => rfl) rfl)
  | loses i l cause _ departure =>
    refine .inr (State.linkSteps_loses ?_ cause)
    rcases departure with rfl | ⟨rfl, _⟩ | rfl
    · exact Lane.vacate_tx { s.lane i with present := false } _
    · exact Lane.extract_tx { s.lane i with lever := false }
    · exact Lane.fault_tx _ _
  | starts m i facts policy j =>
    exact .inr (State.LinkSteps.arbitrate (.setLane (i := i) (l := { (s.lane i).goto .loading with cause := none }) .same rfl
      fun g hg => ⟨g, hg, rfl⟩) rfl)
  | aborts i j => exact .inr ((s.jobEvent_endJob j _).linkSteps.arbitrate (by simp))
  | retireJob i b j digest =>
    exact .inr (((State.jobEvent_reportRetired _ j b.frames digest).linkSteps_setLane (.inr rfl)).arbitrate (by simp))
  | examines => exact .inr s.linkSteps_examineRow
  | takes => exact .inr s.linkSteps_takeRow
  | grants => exact .inr s.linkSteps_completeGrant
  | freezes j => exact .inr (s.linkSteps_freezeExpired j)
  | samples j =>
    unfold State.sampleExpired
    (repeat' split) <;> exact .inr (.of_kept (fun _ => rfl) rfl)
  | noticed => exact .inr (.of_kept (fun _ => rfl) rfl)

/-- Fields of other blocks do not matter. -/
theorem State.SamePart.lane_eq {s t : State} (h : State.SamePart s t) (i : Slot) : t.lane i = s.lane i :=
  congrArg (fun v : Vector Lane 16 => v[i]) h.lanes

theorem State.SamePart.job_eq {s t : State} (h : State.SamePart s t) (j : JobNo) : t.job j = s.job j :=
  congrArg (fun v : Vector (Option Job) 4 => v[j]) h.jobs

/-- All that one command does to transmitters and grant: a reset clears them, and any other command moves each transmitter once
at most. -/
theorem exec_linkSteps {c : Instr} {s t : State} (run : exec c s = .next t) :
    ((c = .softReset ∨ c = .powerOn ∨ c = .resetPinAssert ∨ c = .resetEnd) ∧ State.LinksReset t) ∨
      State.LinkSteps s t := by
  obtain ⟨a, b, before, move, after⟩ := exec_steps c run
  refine move.linkSteps.imp (fun ⟨resets, cleared⟩ => ⟨resets,
    ⟨fun i => (after.lane_eq i).trans (cleared.lanes i), after.grant.trans cleared.grant⟩⟩) fun steps => ?_
  have jobs : a.job = s.job := funext before.job_eq
  refine ⟨fun i => ?_, fun g hg => ?_⟩
  · have moves := steps.lanes i
    rwa [before.lane_eq, before.grant, ← after.lane_eq] at moves
  · have builds := steps.grant g (after.grant ▸ hg)
    rwa [before.store, before.grant, jobs] at builds

/-! ### Sound transmitters -/

/-- A burst that may be handed over has one to eight frames, if the grant collects no more (04, R78). -/
theorem Lane.Gives.fits {l : Lane} {grant : Option Grant} {frames : List Frame} (h : l.Gives grant frames)
    (few : ∀ g ∈ grant, g.frames.length ≤ 8) : 1 ≤ frames.length ∧ frames.length ≤ 8 := by
  cases h with
  | align => exact ⟨by decide, by decide⟩
  | test => exact ⟨by decide, by decide⟩
  | queue waiting =>
    obtain ⟨_, short, _, _, taken⟩ := takeEntries_spec 8 l.live.queue
    rw [List.length_map]
    exact ⟨taken (by decide) waiting, short⟩
  | grant g hg filled => exact ⟨List.length_pos_of_ne_nil filled, few g hg⟩

/-- A sound transmitter stays sound in each of its moves. -/
theorem Transmitter.Moves.sound {given : List Frame → Prop} {t u : Transmitter} (m : Transmitter.Moves given t u)
    (fits : ∀ frames, given frames → 1 ≤ frames.length ∧ frames.length ≤ 8) (h : t.Sound) : u.Sound := by
  cases m with
  | same => exact h
  | released => exact ⟨by simp [Transmitter.release], by simp [Transmitter.release], by simp [Transmitter.release],
      by simp [Transmitter.release]⟩
  | takes frames client snapshot offered =>
    obtain ⟨filled, few⟩ := fits frames offered
    refine ⟨by simp [Transmitter.take], by simp [Transmitter.take], by simp [Transmitter.take], fun b hb => ?_⟩
    obtain rfl := Option.some.inj hb
    exact ⟨filled, few, rfl, Nat.zero_le _⟩
  | awaits sending =>
    have out : t.outstanding ≠ none := fun e => by
      rw [h.idle_iff.2 e] at sending
      cases sending
    exact ⟨by simp [Transmitter.await, out], by simp [Transmitter.await],
      by simp [Transmitter.await, Config.ackTimeout], h.burst⟩
  | resends b awaited may =>
    obtain ⟨filled, few, laid, _⟩ := h.burst b (Transmitter.awaited_outstanding awaited)
    refine ⟨by simp [Transmitter.resend], by simp [Transmitter.resend], by simp [Transmitter.resend], fun x hx => ?_⟩
    obtain rfl := Option.some.inj hx
    exact ⟨filled, few, laid, of_decide_eq_true may⟩

/-- A grant collects eight frames at most. -/
theorem Grant.Builds.fits {store : Store} {job : JobNo → Option Job} {before : Option Grant} {frames : List Frame}
    (h : Grant.Builds store job before frames) (few : ∀ g ∈ before, g.frames.length ≤ 8) : frames.length ≤ 8 := by
  cases h with
  | keeps g hg => exact few g hg
  | reads g _ _ _ _ _ room =>
    rw [List.length_append]
    exact room
  | opens => decide
  | wipes => decide
  | verifies => exact show 1 ≤ 8 by decide

theorem State.LinkSteps.sound {s t : State} (steps : State.LinkSteps s t) (h : s.LinksSound) : t.LinksSound :=
  ⟨fun i => (steps.lanes i).sound (fun _ given => given.fits h.grant) (h.lanes i), fun g hg => (steps.grant g hg).fits h.grant⟩

theorem State.LinksReset.sound {t : State} (h : t.LinksReset) : t.LinksSound where
  lanes i := by
    rw [h.lanes]
    exact ⟨by decide, by decide, by simp [Lane.reset, Transmitter.reset], by simp [Lane.reset, Transmitter.reset]⟩
  grant := by simp [h.grant]

/-- A microsecond on a sound transmitter. -/
theorem Lane.tick_sound {l : Lane} (h : l.tx.Sound) : l.tick.tx.Sound := by
  refine ⟨h.idle_iff, ?_, fun n hn => ?_, h.burst⟩
  · simpa [Lane.tick, Timer.tick] using h.timer_iff
  · obtain ⟨m, hm, rfl⟩ := Option.map_eq_some_iff.1 hn
    exact (Nat.sub_le m 1).trans (h.timer_fit m hm)

/-- Time runs on the acknowledgement timers alone. -/
theorem State.LinksSound.tick {s : State} (h : s.LinksSound) : s.tick.LinksSound := by
  unfold State.tick
  split
  · exact h
  · refine ⟨fun i => ?_, h.grant⟩
    rw [State.mapJobs_lane, State.lane_mapLanes]
    exact Lane.tick_sound (h.lanes i)

/-- Settles O55: a transmitter moves in one of five ways, each of which keeps it sound, as do time and the resets. -/
theorem step_keepsTransmitters : Obligations.Step_KeepsTransmitters := by
  intro s t sound run
  unfold step at run
  split at run
  · injection run with run
    exact run ▸ sound.tick
  · rcases exec_linkSteps run with ⟨_, cleared⟩ | steps
    · exact cleared.sound
    · exact steps.sound ⟨sound.lanes, sound.grant⟩

/-! ### Sequence numbers -/

/-- Settles O33: of the five moves of a transmitter only the taking of a burst moves its next number. -/
theorem sequenceNumbers_onePerBurst : Obligations.SequenceNumbers_OnePerBurst := by
  intro c s t i run soft power pin ends
  rcases exec_linkSteps run with ⟨resets, _⟩ | steps
  · rcases resets with e | e | e | e
    · exact absurd e soft
    · exact absurd e power
    · exact absurd e pin
    · exact absurd e ends
  · have moves := steps.lanes i
    generalize (t.lane i).tx = after at moves ⊢
    cases moves with
    | same => exact .inl rfl
    | released => exact .inl rfl
    | takes => exact .inr ⟨rfl, rfl, _, rfl, rfl, rfl⟩
    | awaits => exact .inl rfl
    | resends => exact .inl rfl

end Sys2Proof.Machine
end

section
/-! SUPPORT. The names of rows and segments, command by command (04, R75; 05, R98 and R110; 06, R132; 07, R166): what a lane's live
state, a job's entry, a burst and a grant name stays in the store. -/

namespace Sys2Proof.Machine

/-! ### What a lane's live state names -/

/-- The live state of a lane names rows and segments of a store of `n` rows, and its repair cursor stands in its segment. -/
structure Lane.NamesWithin (n : Nat) (l : Lane) : Prop where
  queue : ∀ e ∈ l.live.queue, e.InStore n
  repairs : ∀ segment ∈ l.live.repairs, segment < n / 4096
  offset : l.live.repairOffset < 4096
  next_audit : l.state = .live → l.live.nextAudit < n / 4096

/-- A frame of a store is one of a larger store. -/
theorem Frame.InStore.mono {m n : Nat} (le : m ≤ n) {f : Frame} (h : f.InStore m) : f.InStore n := by
  cases f with
  | write => exact h.trans_le le
  | patch => exact h.trans_le le
  | clear => exact h.trans_le le
  | audit => exact h.trans_le (Nat.div_le_div_right le)
  | verify => exact h.trans_le (Nat.div_le_div_right le)
  | wipe => trivial
  | align => trivial
  | test => trivial

section
variable {n : Nat} {k l : Lane}

theorem Lane.NamesWithin.mono {m : Nat} (h : l.NamesWithin m) (le : m ≤ n) : l.NamesWithin n :=
  ⟨fun e he => (h.queue e he).mono le, fun x hx => (h.repairs x hx).trans_le (Nat.div_le_div_right le), h.offset,
    fun live => (h.next_audit live).trans_le (Nat.div_le_div_right le)⟩

/-- A lane's names are those of its live state. -/
theorem Lane.NamesWithin.of_live (h : k.NamesWithin n) (live : l.live = k.live) (state : l.state = .live → k.state = .live) :
    l.NamesWithin n := by
  obtain ⟨queue, repairs, offset, next⟩ := h
  rw [← live] at queue repairs offset next
  exact ⟨queue, repairs, offset, fun e => next (state e)⟩

/-- In a state other than LIVE the next audit segment names nothing. -/
theorem Lane.NamesWithin.iff_of_other (other : l.state ≠ .live) :
    l.NamesWithin n ↔ (∀ e ∈ l.live.queue, e.InStore n) ∧ (∀ segment ∈ l.live.repairs, segment < n / 4096) ∧
      l.live.repairOffset < 4096 :=
  ⟨fun h => ⟨h.queue, h.repairs, h.offset⟩, fun ⟨queue, repairs, offset⟩ =>
    ⟨queue, repairs, offset, fun e => absurd e other⟩⟩

/-- A lane's view of its inputs names nothing. -/
theorem Lane.NamesWithin.view (h : l.NamesWithin n) (present lever : Bool) :
    ({ l with present, lever } : Lane).NamesWithin n := h.of_live rfl id

/-- A lane's transmitter is no part of its live state. -/
theorem Lane.NamesWithin.link (h : l.NamesWithin n) (tx : Transmitter) : ({ l with tx } : Lane).NamesWithin n :=
  h.of_live rfl id

/-- A lane that has left its state names no more than before. -/
theorem Lane.NamesWithin.moved (h : l.NamesWithin n) {state : LaneState} (other : state ≠ .live) (cause : Option LaneCause) :
    (l.moved state cause).NamesWithin n := by
  by_cases live : l.state = .live
  · have ended : (l.moved state cause).live = l.live.ended := if_pos live
    rw [Lane.NamesWithin.iff_of_other (l := l.moved state cause) other, ended]
    simp [Live.ended]
  · exact h.of_live (if_neg live) fun e => absurd e other

theorem Lane.NamesWithin.vacate (h : l.NamesWithin n) (cause : Option LaneCause) : (l.vacate cause).NamesWithin n := by
  rw [Lane.vacate_eq]
  exact (h.moved (state := .empty) (by decide) cause).of_live rfl id

theorem Lane.NamesWithin.identify (h : l.NamesWithin n) : l.identify.NamesWithin n := by
  rw [Lane.identify_eq]
  exact (h.moved (state := .identifying) (by decide) none).of_live rfl id

theorem Lane.NamesWithin.extract (h : l.NamesWithin n) : l.extract.NamesWithin n := by
  rw [Lane.extract_eq]
  exact h.moved (by decide) _

theorem Lane.NamesWithin.fault (h : l.NamesWithin n) (cause : LaneCause) : (l.fault cause).NamesWithin n := by
  rw [Lane.fault_eq]
  exact h.moved (by decide) _

theorem Lane.NamesWithin.ready (h : l.NamesWithin n) : (l.abandon.goto .ready).NamesWithin n := by
  rw [Lane.abandon_goto_keep]
  exact h.moved (by decide) _

/-- The end of a lane's job; a cut-over starts the audits at segment 0 (05, R114). -/
theorem Lane.NamesWithin.jobEnded (h : l.NamesWithin n) (room : l.state = .loading → 0 < n / 4096) (outcome : JobState)
    (interval : Nat) : (l.jobEnded outcome interval).NamesWithin n := by
  unfold Lane.jobEnded
  split
  · next loading =>
    split
    · exact ⟨by simp [Lane.enterLive, Live.start], by simp [Lane.enterLive, Live.start], Nat.zero_lt_succ _,
        fun _ => room loading⟩
    · exact h.ready
  · exact h

/-! ### Enqueues, repairs and audits -/

theorem Lane.NamesWithin.enqueue (h : l.NamesWithin n) (set : Settings) {e : ApplyEntry} (named : e.InStore n) :
    (l.enqueue set e).NamesWithin n := by
  rw [Lane.enqueue_eq]
  refine ⟨fun x hx => ?_, h.repairs, h.offset, h.next_audit⟩
  rcases List.mem_append.1 hx with hx | hx
  · exact h.queue x hx
  · exact List.mem_singleton.1 hx ▸ named

theorem Lane.NamesWithin.feed (h : l.NamesWithin n) (set : Settings) (kind : Kind) {entry : Profile → Option ApplyEntry}
    (named : ∀ p, ∀ e ∈ entry p, e.InStore n) : (l.feed set kind entry).NamesWithin n := by
  unfold Lane.feed
  split
  · split
    · next e he => exact h.enqueue set (named _ e he)
    · exact h
  · exact h

theorem Lane.NamesWithin.advanceRepair (h : l.NamesWithin n) : l.advanceRepair.NamesWithin n := by
  unfold Lane.advanceRepair
  split
  · next inside => exact ⟨h.queue, h.repairs, inside, h.next_audit⟩
  · exact ⟨h.queue, fun x hx => h.repairs x (List.mem_of_mem_tail hx), Nat.zero_lt_succ _, h.next_audit⟩

/-- The repair entry of a row names the row. -/
theorem repairEntry_inStore (store : Store) (p : Profile) {row : Nat} (inside : row < n) :
    (repairEntry store p row).InStore n := by
  unfold repairEntry
  split
  · split <;> exact inside
  · exact inside

/-- Repair entries are of rows of the segments that the list names (05, R111 and R112). -/
theorem Lane.NamesWithin.repair (store : Store) (set : Settings) (steps : Nat) (h : l.NamesWithin n) :
    (Lane.repair store set steps l).NamesWithin n := by
  induction steps generalizing l with
  | zero => exact h
  | succ steps ih =>
    unfold Lane.repair
    split
    · exact h
    · next segment _ repairs =>
      split
      · have listed : segment < n / 4096 := h.repairs segment (by rw [repairs]; exact List.mem_cons_self ..)
        have offset := h.offset
        have inside : Config.segmentRows * segment + l.live.repairOffset < n := by
          rw [Config.segmentRows]
          omega
        exact ih (h.enqueue set (repairEntry_inStore store l.profile inside)).advanceRepair
      · exact h

theorem Lane.NamesWithin.mismatch (h : l.NamesWithin n) (store : Store) (set : Settings) {segment : Nat}
    (listed : segment < n / 4096) : (l.mismatch store set segment).NamesWithin n := by
  unfold Lane.mismatch
  simp only []
  split
  · exact ⟨h.queue, h.repairs, h.offset, h.next_audit⟩
  · refine Lane.NamesWithin.repair store set _ ⟨h.queue, fun x hx => ?_, h.offset, h.next_audit⟩
    rcases List.mem_append.1 hx with hx | hx
    · exact h.repairs x hx
    · exact List.mem_singleton.1 hx ▸ listed

/-- The audit of a retired burst is of the segment that its last frame names (04, R91). -/
theorem Lane.NamesWithin.retiredLive (h : l.NamesWithin n) (store : Store) (set : Settings) {b : Burst}
    (named : ∀ f ∈ b.frames, f.InStore n) (digest : Option Word32) : (l.retiredLive store set b digest).NamesWithin n := by
  unfold Lane.retiredLive Lane.compareAudit
  split
  · next last _ =>
    split
    · exact h
    · exact h.mismatch store set (named _ (List.mem_of_getLast? last))
  · exact h

/-- An audit names the next audit segment and moves on within the store (05, R107). -/
theorem Lane.NamesWithin.placeAudit (h : l.NamesWithin n) (live : l.state = .live) {store : Store} (size : store.size = n)
    (set : Settings) : (l.placeAudit store set).NamesWithin n := by
  have next := h.next_audit live
  have placed := h.enqueue set (e := .audit l.live.nextAudit (store.digest l.profile l.live.nextAudit)) next
  refine ⟨placed.queue, placed.repairs, placed.offset, fun _ => ?_⟩
  have segments : store.segments = n / 4096 := by rw [Store.segments, size, Config.segmentRows]
  exact segments ▸ Nat.mod_lt _ (segments ▸ Nat.zero_lt_of_lt next)

theorem Lane.NamesWithin.auditExpiry (h : l.NamesWithin n) (live : l.state = .live) {store : Store} (size : store.size = n)
    (set : Settings) : (l.auditExpiry store set).NamesWithin n := by
  have placed := h.placeAudit live size set
  have still : (l.placeAudit store set).state = .live := (l.placeAudit_front store set).state.trans live
  unfold Lane.auditExpiry
  split
  · exact ⟨h.queue, h.repairs, h.offset, h.next_audit⟩
  · simp only []
    split
    · split
      · have twice := placed.placeAudit still size set
        exact ⟨twice.queue, twice.repairs, twice.offset, twice.next_audit⟩
      · exact placed
    · exact h

theorem Lane.NamesWithin.auditTick (h : l.NamesWithin n) {store : Store} (size : store.size = n) (set : Settings) :
    (l.auditTick store set).NamesWithin n := by
  unfold Lane.auditTick
  split
  · next due =>
    have acted := h.auditExpiry due.1 size set
    exact ⟨acted.queue, acted.repairs, acted.offset, acted.next_audit⟩
  · exact h

theorem Lane.NamesWithin.fill (h : l.NamesWithin n) (store : Store) (set : Settings) : (l.fill store set).NamesWithin n := by
  unfold Lane.fill
  split
  · refine Lane.NamesWithin.repair store set _ ?_
    obtain ⟨parts, _⟩ := takeEntries_spec 8 l.live.queue
    have dequeued : l.dequeue.NamesWithin n :=
      ⟨fun e he => h.queue e (parts ▸ List.mem_append_right _ he), h.repairs, h.offset, h.next_audit⟩
    unfold Lane.testClear
    split
    · exact ⟨dequeued.queue, dequeued.repairs, dequeued.offset, dequeued.next_audit⟩
    · exact dequeued
  · exact h

/-! ### Lane events -/

theorem Lane.NamesWithin.failAttempt (h : l.NamesWithin n) : l.failAttempt.NamesWithin n := by
  unfold Lane.failAttempt
  split
  · rw [Lane.beginAlign_attempt]
    exact h.of_live rfl id
  · exact h.fault _

theorem Lane.NamesWithin.identified (h : l.NamesWithin n) (descriptor : Vector Byte 16) :
    (l.identified descriptor).NamesWithin n := by
  unfold Lane.identified
  split
  · rw [Lane.train, Lane.beginAlign_eq]
    exact h.of_live rfl fun e => nomatch e
  · exact h.fault _

theorem Lane.NamesWithin.sendTest (h : l.NamesWithin n) : l.sendTest.NamesWithin n := by
  unfold Lane.sendTest
  split
  · exact h.of_live rfl id
  · exact h

theorem Lane.NamesWithin.sent (h : l.NamesWithin n) : l.sent.NamesWithin n := by
  unfold Lane.sent
  split
  · split
    · rcases step : l.step with _ | (_ | _)
      · exact Lane.trainingSent_none step ▸ h.of_live rfl id
      · exact Lane.trainingSent_align step ▸ h.of_live rfl id
      · rcases Nat.lt_or_ge l.testsTaken 64 with more | done
        · exact Lane.trainingSent_test step more ▸ h.of_live rfl id
        · exact Lane.trainingSent_last step done ▸ h.of_live rfl id
    · exact h.of_live rfl id
  · exact h
  · exact h

/-- Each event of a lane alone keeps its names in the store, if the outstanding burst's are. -/
theorem Lane.Turns.namesWithin {store : Store} {set : Settings} (event : Lane.Turns store set k l) (size : store.size = n)
    (bursts : ∀ b ∈ k.tx.outstanding, ∀ f ∈ b.frames, f.InStore n) (h : k.NamesWithin n) : l.NamesWithin n := by
  cases event with
  | unmark => exact h.of_live rfl id
  | sent => exact h.sent
  | alignExpired =>
    unfold Lane.alignExpired
    split
    · exact h.failAttempt
    · exact h
  | replyExpired =>
    unfold Lane.replyExpired
    split
    · exact h.failAttempt
    · exact h
  | locked =>
    unfold Lane.takeLocked
    split
    · exact Lane.NamesWithin.sendTest (h.of_live rfl id)
    · exact h
  | pattern failures =>
    unfold Lane.takePattern
    split
    · split
      · exact h.ready
      · exact h.failAttempt
    · exact h
  | fill => exact h.fill store set
  | audit => exact h.auditTick size set
  | rise => exact h.of_live rfl id
  | close => exact h.of_live rfl id
  | fallEmpty => exact h.of_live rfl id
  | fallExtracting => exact (h.view false k.lever).vacate _
  | fall => exact (h.view false k.lever).vacate _
  | openOut => exact h.of_live rfl id
  | extract => exact (h.view k.present false).extract
  | resetOut => exact h.vacate none
  | release => exact h.ready.of_live rfl id
  | clearAlarm => exact ⟨h.queue, h.repairs, h.offset, h.next_audit⟩
  | retireTraining => exact h.of_live rfl id
  | retireLive b digest awaited =>
    exact (h.link k.tx.release).retiredLive store set (bursts b (Transmitter.awaited_outstanding awaited)) digest
  | resend => exact h.of_live rfl id
  | linkFault => exact h.fault _
  | dropBurst => exact h.of_live rfl id

end

/-! ### What a job's entry names -/

/-- A job's entry names rows and segments of a store of `n` rows. -/
structure Job.NamesWithin (n : Nat) (j : Job) : Prop where
  dirty : ∀ row ∈ j.dirty, row < n
  cursors : j.sweepCursor ≤ n ∧ j.drainCursor ≤ n
  progress : j.progress ≤ 16
  verify : j.verifySegment ≤ n / 4096 ∧ ∀ segment ∈ j.mismatched, segment < n / 4096

section
variable {n : Nat} {j : Job}

theorem Job.NamesWithin.mono {m : Nat} (h : j.NamesWithin m) (le : m ≤ n) : j.NamesWithin n :=
  ⟨fun row hr => (h.dirty row hr).trans_le le, ⟨h.cursors.1.trans le, h.cursors.2.trans le⟩, h.progress,
    h.verify.1.trans (Nat.div_le_div_right le), fun x hx => (h.verify.2 x hx).trans_le (Nat.div_le_div_right le)⟩

/-- A job starts at row 0 and segment 0 (06, R122). -/
theorem Job.accepted_namesWithin (i : Slot) (profile : Profile) (policy : Policy) :
    (Job.accepted i profile policy).NamesWithin n :=
  ⟨by simp [Job.accepted], ⟨Nat.zero_le _, Nat.zero_le _⟩, Nat.zero_le _, Nat.zero_le _, by simp [Job.accepted]⟩

/-- A change of other fields of the entry. -/
theorem Job.NamesWithin.of_same {after : Job} (h : j.NamesWithin n) (dirty : after.dirty = j.dirty)
    (sweep : after.sweepCursor = j.sweepCursor) (drain : after.drainCursor = j.drainCursor)
    (progress : after.progress = j.progress) (verify : after.verifySegment = j.verifySegment)
    (mismatched : after.mismatched = j.mismatched) : after.NamesWithin n :=
  ⟨dirty ▸ h.dirty, sweep ▸ drain ▸ h.cursors, progress ▸ h.progress, verify ▸ mismatched ▸ h.verify⟩

theorem Job.NamesWithin.finish (h : j.NamesWithin n) (outcome : JobState) : (j.finish outcome).NamesWithin n :=
  ⟨by simp [Job.finish], h.cursors, h.progress, h.verify⟩

theorem Job.NamesWithin.startRound (h : j.NamesWithin n) : j.startRound.NamesWithin n :=
  ⟨h.dirty, h.cursors, h.progress, Nat.zero_le _, by simp [Job.startRound]⟩

theorem Job.NamesWithin.enterFreeze (h : j.NamesWithin n) : j.enterFreeze.NamesWithin n :=
  ⟨h.dirty, ⟨h.cursors.1, Nat.zero_le _⟩, h.progress, h.verify⟩

theorem Job.NamesWithin.startPass (h : j.NamesWithin n) (pass : Nat) : (j.startPass pass).NamesWithin n :=
  ⟨h.dirty, ⟨h.cursors.1, Nat.zero_le _⟩, h.progress, h.verify⟩

theorem Job.NamesWithin.startSweep (h : j.NamesWithin n) : j.startSweep.NamesWithin n :=
  ⟨h.dirty, ⟨Nat.zero_le _, h.cursors.2⟩, Nat.zero_le _, h.verify⟩

theorem Job.NamesWithin.countStall (h : j.NamesWithin n) : j.countStall.NamesWithin n := by
  unfold Job.countStall
  split
  · exact h.of_same rfl rfl rfl rfl rfl rfl
  · exact h

theorem Job.NamesWithin.offer (h : j.NamesWithin n) (kind : Kind) {row : Nat} (inside : row < n) :
    (Job.offer kind row j).NamesWithin n := by
  rw [Job.offer_eq, Job.offered]
  split
  · refine ⟨fun x hx => ?_, h.cursors, h.progress, h.verify⟩
    rcases (mem_dirtyInsert row x j.dirty).1 hx with rfl | hx
    · exact inside
    · exact h.dirty x hx
  · exact h

/-- The rows of a differing segment are rows of the store (07, R169). -/
theorem Job.NamesWithin.redirty (h : j.NamesWithin n) : ∀ row ∈ j.mismatched.foldr dirtySegment j.dirty, row < n := by
  have listed := h.verify.2
  generalize j.mismatched = segments at listed
  induction segments with
  | nil => exact h.dirty
  | cons segment segments ih =>
    rw [List.forall_mem_cons] at listed
    intro row hr
    rw [List.foldr_cons, mem_dirtySegment] at hr
    rcases hr with e | hr
    · have := listed.1
      omega
    · exact ih listed.2 row hr

/-- A grant of a job with a segment left to verify advances within the store (07, R166). -/
theorem Job.NamesWithin.opened (h : j.NamesWithin n) {store : Store} (size : store.size = n)
    (work : j.hasWork store = true) : j.opened.NamesWithin n := by
  unfold Job.opened
  split
  · next verify =>
    rw [Job.hasWork, verify] at work
    have left : j.verifySegment < n / 4096 := size ▸ of_decide_eq_true work
    exact ⟨h.dirty, h.cursors, h.progress, left, h.verify.2⟩
  · exact h

/-- The progress in the store is at most sixteen sixteenths (06, R131). -/
theorem Job.NamesWithin.examined (h : j.NamesWithin n) {store : Store} (size : store.size = n)
    (inside : j.sweepCursor < store.size) : (j.examined store).NamesWithin n := by
  refine ⟨h.dirty, ⟨size ▸ inside, h.cursors.2⟩, ?_, h.verify⟩
  calc (j.sweepCursor + 1) * 16 / store.size
      ≤ store.size * 16 / store.size := Nat.div_le_div_right (Nat.mul_le_mul_right 16 inside)
    _ = 16 := Nat.mul_div_cancel_left 16 (Nat.zero_lt_of_lt inside)

/-- A row leaves the set and the drain cursor moves past it (06, R137). -/
theorem Job.NamesWithin.taken (h : j.NamesWithin n) {row : Nat} (dirty : row ∈ j.dirty) :
    ({ j with dirty := j.dirty.erase row, drainCursor := row + 1 } : Job).NamesWithin n :=
  ⟨fun x hx => h.dirty x (List.mem_of_mem_erase hx), ⟨h.cursors.1, h.dirty row dirty⟩, h.progress, h.verify⟩

end

/-! ### The job table -/

/-- Every entry of the job table names rows and segments of a store of `n` rows. -/
def State.JobNames (n : Nat) (s : State) : Prop := ∀ j job, s.job j = some job → job.NamesWithin n

section
variable {n : Nat} {s : State}

theorem State.JobNames.of_jobs {t : State} (h : s.JobNames n) (jobs : t.jobs = s.jobs) : t.JobNames n :=
  fun j job hj => h j job ((congrArg (fun v : Vector (Option Job) 4 => v[j]) jobs).symm.trans hj)

theorem State.JobNames.mono {m : Nat} (h : s.JobNames m) (le : m ≤ n) : s.JobNames n :=
  fun j job hj => (h j job hj).mono le

theorem State.JobNames.setJob (h : s.JobNames n) (j : JobNo) {e : Option Job} (named : ∀ job ∈ e, job.NamesWithin n) :
    (s.setJob j e).JobNames n := by
  intro k job hk
  rw [State.job_setJob] at hk
  split at hk
  · exact named job hk
  · exact h k job hk

/-- One entry changes. -/
theorem State.JobNames.setJob_some (h : s.JobNames n) (j : JobNo) {job : Job} (named : job.NamesWithin n) :
    (s.setJob j (some job)).JobNames n :=
  h.setJob j fun _ hx => Option.some.inj hx ▸ named

theorem State.JobNames.mapJobs (h : s.JobNames n) {f : Job → Job} (named : ∀ job, job.NamesWithin n → (f job).NamesWithin n) :
    (s.mapJobs f).JobNames n := by
  intro j job hj
  rw [State.job_mapJobs] at hj
  obtain ⟨before, hb, rfl⟩ := Option.map_eq_some_iff.1 hj
  exact named before (h j before hb)

theorem State.JobNames.endJob (h : s.JobNames n) (j : JobNo) (outcome : JobState) : (s.endJob j outcome).JobNames n := by
  rcases hj : s.job j with _ | job
  · rw [State.endJob, hj]
    exact h
  · rw [State.endJob_eq hj]
    exact (h.setJob_some j ((h j job hj).finish outcome)).of_jobs rfl

/-- One entry changes and its job ends. -/
theorem State.JobNames.setJob_endJob (h : s.JobNames n) (j : JobNo) {job : Job} (named : job.NamesWithin n)
    (outcome : JobState) : ((s.setJob j (some job)).endJob j outcome).JobNames n :=
  (h.setJob_some j named).endJob j outcome

theorem State.JobNames.freezeDrained (h : s.JobNames n) (j : JobNo) {job : Job} (named : job.NamesWithin n) :
    (s.freezeDrained j job).JobNames n := by
  unfold State.freezeDrained
  split
  · exact h.setJob_some j (named.startRound.of_same rfl rfl rfl rfl rfl rfl)
  · exact h.endJob j _

theorem State.JobNames.freeze (h : s.JobNames n) (j : JobNo) {job : Job} (named : job.NamesWithin n) :
    (s.freeze j job).JobNames n := by
  have entered := h.setJob_some j named.enterFreeze
  unfold State.freeze
  simp only []
  split
  · exact entered.freezeDrained j named.enterFreeze
  · exact entered

theorem State.JobNames.evaluate (h : s.JobNames n) (j : JobNo) {job : Job} (named : job.NamesWithin n) :
    (s.evaluate j job).JobNames n := by
  have recorded : ∀ {x : Job} {outcome : EvalOutcome} {count time : Nat}, x.NamesWithin n →
      (x.record outcome count time).NamesWithin n := fun hx => hx.of_same rfl rfl rfl rfl rfl rfl
  unfold State.evaluate
  simp only []
  split
  · exact h.freeze j (recorded named)
  · split
    · split
      · exact h.freeze j (recorded named.countStall)
      · exact h.setJob_endJob j (recorded named.countStall) _
    · exact h.setJob_some j ((recorded named.countStall).startPass _)

theorem State.JobNames.endOfWork (h : s.JobNames n) (j : JobNo) : (s.endOfWork j).JobNames n := by
  unfold State.endOfWork
  split
  · exact h
  · next job hj =>
    have named := h j job hj
    split
    · exact h
    · split
      · split
        · exact h.evaluate j named
        · exact h
      · split
        · exact h.evaluate j named
        · exact h
      · split
        · exact h.freezeDrained j named
        · exact h
      all_goals exact h

theorem State.JobNames.endRound (h : s.JobNames n) (j : JobNo) {job : Job} (named : job.NamesWithin n) :
    (s.endRound j job).JobNames n := by
  have counted : ({ job with roundsFailed := job.roundsFailed + 1 } : Job).NamesWithin n :=
    named.of_same rfl rfl rfl rfl rfl rfl
  unfold State.endRound
  simp only []
  split
  · exact h.setJob_endJob j named _
  · split
    · have entered := counted.startRound.enterFreeze
      exact h.setJob_some j ⟨counted.redirty, entered.cursors, entered.progress, entered.verify⟩
    · exact h.setJob_endJob j counted _

theorem State.JobNames.verifyAnswer (h : s.JobNames n) (j : JobNo) {job : Job} (named : job.NamesWithin n) {segment : Nat}
    (listed : segment < n / 4096) (digest : Word32) : (s.verifyAnswer j job segment digest).JobNames n := by
  unfold State.verifyAnswer
  simp only []
  generalize differs : (if digest = s.store.digest job.profile segment then job.mismatched
    else dirtyInsert segment job.mismatched) = mismatched
  have inside : ∀ x ∈ mismatched, x < n / 4096 := by
    intro x hx
    rw [← differs] at hx
    split at hx
    · exact named.verify.2 x hx
    · exact ((mem_dirtyInsert _ _ _).1 hx).elim (fun e => e ▸ listed) (named.verify.2 x)
  have answered : ({ job with answered := job.answered + 1, mismatched } : Job).NamesWithin n :=
    ⟨named.dirty, named.cursors, named.progress, named.verify.1, inside⟩
  split
  · exact h.endRound j answered
  · exact h.setJob_some j answered

theorem State.JobNames.reportRetired (h : s.JobNames n) (j : JobNo) {frames : List Frame}
    (listed : ∀ f ∈ frames, f.InStore n) (digest : Option Word32) : (s.reportRetired j frames digest).JobNames n := by
  unfold State.reportRetired
  split
  · exact h
  · next before hj =>
    have counted : (before.countSends frames).NamesWithin n := (h j before hj).of_same rfl rfl rfl rfl rfl rfl
    have drained := (h.setJob_some j counted).endOfWork j
    simp only []
    split
    · exact h.setJob_some j counted.startSweep
    · exact drained
    · exact drained
    · exact drained
    · split
      · next last =>
        exact h.verifyAnswer j counted (listed _ (List.mem_of_getLast? last)) _
      · exact h.setJob_some j counted
    all_goals exact h

theorem State.JobNames.arbitrate (h : s.JobNames n) (size : s.store.size = n) : s.arbitrate.JobNames n := by
  rcases s.arbitrate_cases with ⟨e, _⟩ | ⟨k, job, fp, lp, _, eligible, hj, e⟩ <;> rw [e]
  · exact h
  · obtain ⟨other, hj', _, work, _⟩ := State.eligible_working eligible
    obtain rfl : other = job := Option.some.inj (hj'.symm.trans hj)
    exact (h.setJob_some k ((h k other hj).opened size work)).of_jobs rfl

theorem State.JobNames.failJobOn (h : s.JobNames n) (size : s.store.size = n) (i : Slot) (cause : JobCause) :
    (s.failJobOn i cause).JobNames n := by
  unfold State.failJobOn
  split
  · exact (h.endJob _ _).arbitrate (by simpa using size)
  · exact h

theorem State.JobNames.applyChange (h : s.JobNames n) {store : Store} (size : store.size = n) (kind : Kind) {row : Nat}
    (inside : row < n) (entry : Profile → Option ApplyEntry) : (s.applyChange store kind row entry).JobNames n :=
  State.JobNames.arbitrate
    (State.JobNames.mapJobs (s := { s with store }.mapLanes (Lane.feed s.settings kind entry)) (h.of_jobs rfl)
      fun _ named => named.offer kind inside) size

theorem State.JobNames.examineRow (h : s.JobNames n) (size : s.store.size = n) : s.examineRow.JobNames n := by
  unfold State.examineRow
  split
  · next g job e =>
    obtain ⟨_, hj⟩ := State.grantJob_some e
    split
    · next may =>
      simp only [Grant.maySweep, Bool.and_eq_true, decide_eq_true_eq] at may
      exact (h.setJob_some g.job ((h _ job hj).examined size may.2)).of_jobs rfl
    · exact h
  · exact h

theorem State.JobNames.takeRow (h : s.JobNames n) : s.takeRow.JobNames n := by
  unfold State.takeRow
  split
  · next g job e =>
    obtain ⟨_, hj⟩ := State.grantJob_some e
    split
    · next row found =>
      unfold Grant.mayDrain at found
      split at found
      · exact (h.setJob_some g.job ((h _ job hj).taken (Job.nextDirty_mem found).1)).of_jobs rfl
      · cases found
    · exact h
  · exact h

theorem State.JobNames.completeGrant (h : s.JobNames n) (size : s.store.size = n) : s.completeGrant.JobNames n := by
  have free : ({ s with grant := none } : State).JobNames n := h.of_jobs rfl
  rcases s.completeGrant_cases with e | ⟨g, job, _, _, ⟨_, e⟩ | ⟨_, e⟩⟩ <;> rw [e]
  · exact h
  · exact (free.endOfWork g.job).arbitrate (by simpa using size)
  · exact State.JobNames.arbitrate (free.of_jobs rfl) size

theorem State.JobNames.freezeExpired (h : s.JobNames n) (size : s.store.size = n) (j : JobNo) :
    (s.freezeExpired j).JobNames n := by
  unfold State.freezeExpired
  split
  · next job hj =>
    have named := h j job hj
    split
    · split
      · have thawed : job.thaw.NamesWithin n := (named.startRound.startPass 0).of_same rfl rfl rfl rfl rfl rfl
        have closed : ((s.setJob j (some job.thaw)).closeGrant j).JobNames n := fun k x hk =>
          h.setJob_some j thawed k x ((State.closeGrant_job _ j k).symm.trans hk)
        exact (closed.endOfWork j).arbitrate (by simpa using size)
      · have counted : ({ job with freezeAttempts := job.freezeAttempts + 1 } : Job).NamesWithin n :=
          named.of_same rfl rfl rfl rfl rfl rfl
        exact (h.setJob_endJob j counted _).arbitrate (by simpa using size)
    · exact h
  · exact h

theorem State.JobNames.sampleExpired (h : s.JobNames n) (j : JobNo) : (s.sampleExpired j).JobNames n := by
  unfold State.sampleExpired
  split
  · next job hj =>
    split
    · exact h.setJob_some j ((h j job hj).of_same rfl rfl rfl rfl rfl rfl)
    · exact h
  · exact h

theorem State.JobNames.noticed (h : s.JobNames n) {j : JobNo} {job : Job} (hj : s.job j = some job) :
    (s.setJob j job.noticed).JobNames n := by
  unfold Job.noticed
  split
  · exact h.setJob_some j ((h j job hj).of_same rfl rfl rfl rfl rfl rfl)
  · exact h.setJob j (by simp)

end

/-! ### Bursts and the grant -/

/-- What a lane may hand over names what its queue and the grant name (04, R75). -/
theorem Lane.Gives.inStore {n : Nat} {l : Lane} {grant : Option Grant} {frames : List Frame} (h : l.Gives grant frames)
    (queue : ∀ e ∈ l.live.queue, e.InStore n) (collected : ∀ g ∈ grant, ∀ f ∈ g.frames, f.InStore n) :
    ∀ f ∈ frames, f.InStore n := by
  cases h with
  | align => exact fun f hf => List.eq_of_mem_replicate hf ▸ trivial
  | test => exact fun f hf => List.mem_singleton.1 hf ▸ trivial
  | queue =>
    obtain ⟨parts, _⟩ := takeEntries_spec 8 l.live.queue
    intro f hf
    obtain ⟨e, he, rfl⟩ := List.mem_map.1 hf
    exact queue e (parts ▸ List.mem_append_left _ he)
  | grant g hg => exact collected g hg

/-- A transmitter's move leaves an outstanding burst with the frames it had, or takes one of those given. -/
theorem Transmitter.Moves.frames {given : List Frame → Prop} {t u : Transmitter} (m : Transmitter.Moves given t u) {b : Burst}
    (out : b ∈ u.outstanding) : (∃ a ∈ t.outstanding, a.frames = b.frames) ∨ given b.frames := by
  cases m with
  | same => exact .inl ⟨b, out, rfl⟩
  | released => cases out
  | takes frames client snapshot offered =>
    obtain rfl := Option.some.inj out
    exact .inr offered
  | awaits => exact .inl ⟨b, out, rfl⟩
  | resends a awaited =>
    obtain rfl := Option.some.inj out
    exact .inl ⟨a, Transmitter.awaited_outstanding awaited, rfl⟩

/-- The frames of a grant name what the grant before it and the job's entry name. -/
theorem Grant.Builds.inStore {store : Store} {job : JobNo → Option Job} {before : Option Grant} {frames : List Frame}
    (h : Grant.Builds store job before frames) (collected : ∀ g ∈ before, ∀ f ∈ g.frames, f.InStore store.size)
    (dirty : ∀ j x, job j = some x → ∀ row ∈ x.dirty, row < store.size) : ∀ f ∈ frames, f.InStore store.size := by
  cases h with
  | keeps g hg => exact collected g hg
  | reads g x row frame hg hj _ named read =>
    have inside : row < store.size := named.elim id (dirty _ x hj row)
    intro f hf
    rcases List.mem_append.1 hf with hf | hf
    · exact collected g hg f hf
    · obtain rfl := List.mem_singleton.1 hf
      rcases read with rfl | ⟨enc, rfl⟩ <;> exact inside
  | opens => simp
  | wipes => exact fun f hf => List.mem_singleton.1 hf ▸ trivial
  | verifies segment listed => exact fun f hf => List.mem_singleton.1 hf ▸ listed

/-! ### Every command -/

/-- What outstanding bursts and the grant name lies in a store of `n` rows. -/
structure State.LinkNames (n : Nat) (s : State) : Prop where
  bursts : ∀ i, ∀ b ∈ (s.lane i).tx.outstanding, ∀ f ∈ b.frames, f.InStore n
  grant : ∀ g ∈ s.grant, ∀ f ∈ g.frames, f.InStore n

/-- The names of the whole part lie in the store, with what the blocks' agreement says of the store's size. -/
structure State.NamesFit (s : State) : Prop where
  rows : s.store.RowsExact
  room : ∀ i, (s.lane i).state = .loading → 0 < s.store.size / 4096
  lanes : ∀ i, (s.lane i).NamesWithin s.store.size
  links : s.LinkNames s.store.size
  jobs : s.JobNames s.store.size

/-- The rows that a part's admitted changes name are rows of its store. -/
theorem State.NamesFit.of_namesInStore {s : State} (rows : s.store.RowsExact) (agree : s.BlocksAgree)
    (live : ∀ i, (s.lane i).LiveFits) (h : s.NamesInStore) : s.NamesFit where
  rows := rows
  room i loading := by
    obtain ⟨j, job, hj, _⟩ := (agree.loading_iff i).1 loading
    have initialized : s.store.phase = .initialized := by
      by_contra phase
      rw [(agree.initialized phase).1 j] at hj
      cases hj
    rcases rows.size_allowed (by rw [initialized]; decide) with e | e | e | e <;> rw [e] <;> decide
  lanes i := ⟨h.entries i, h.repairs i, (live i).offset, h.next_audit i⟩
  links := ⟨h.bursts, h.grant⟩
  jobs j job hj := ⟨h.dirty j job hj, h.cursors j job hj, h.progress j job hj, h.verify j job hj⟩

/-- The parts of the names, put together. -/
theorem State.namesInStore_of_parts {s : State} (lanes : ∀ i, (s.lane i).NamesWithin s.store.size)
    (links : s.LinkNames s.store.size) (jobs : s.JobNames s.store.size) : s.NamesInStore where
  entries i := (lanes i).queue
  repairs i := (lanes i).repairs
  next_audit i := (lanes i).next_audit
  bursts := links.bursts
  grant := links.grant
  dirty j job hj := (jobs j job hj).dirty
  cursors j job hj := (jobs j job hj).cursors
  progress j job hj := (jobs j job hj).progress
  verify j job hj := (jobs j job hj).verify

/-- Fields of other blocks do not matter. -/
theorem State.NamesFit.of_same {s t : State} (h : s.NamesFit) (same : State.SamePart s t) : t.NamesFit where
  rows := same.store ▸ h.rows
  room i := by rw [same.lane_eq, same.store]; exact h.room i
  lanes i := by rw [same.lane_eq, same.store]; exact h.lanes i
  links := ⟨fun i => by rw [same.lane_eq, same.store]; exact h.links.bursts i,
    by rw [same.grant, same.store]; exact h.links.grant⟩
  jobs := by rw [same.store]; exact h.jobs.of_jobs same.jobs

theorem Lane.reset_namesWithin (n : Nat) : Lane.reset.NamesWithin n :=
  ⟨by simp [Lane.reset, Live.reset], by simp [Lane.reset, Live.reset], Nat.zero_lt_succ _, fun live => nomatch live⟩

/-- One lane changes. -/
theorem State.namesWithin_setLane {s : State} {n : Nat} (h : ∀ i, (s.lane i).NamesWithin n) {i : Slot} {l : Lane}
    (named : l.NamesWithin n) (k : Slot) : ((s.setLane i l).lane k).NamesWithin n := by
  rw [State.lane_setLane]
  split
  · exact named
  · exact h k

/-- An event of a job. -/
theorem State.JobEvent.namesWithin {s t : State} {n : Nat} (event : State.JobEvent s t)
    (h : ∀ i, (s.lane i).NamesWithin n) (room : ∀ i, (s.lane i).state = .loading → 0 < n / 4096) (i : Slot) :
    (t.lane i).NamesWithin n := by
  rcases event.lanes i with e | ⟨outcome, e⟩ <;> rw [e]
  · exact h i
  · exact (h i).jobEnded (room i) outcome _

/-- An event of jobs after a LOADING lane has left its state. -/
theorem State.namesWithin_loses {s : State} {n : Nat} (h : ∀ i, (s.lane i).NamesWithin n)
    (room : ∀ i, (s.lane i).state = .loading → 0 < n / 4096) {i : Slot} {l : Lane} (named : l.NamesWithin n)
    (left : l.state ≠ .loading) (cause : JobCause) (k : Slot) : (((s.setLane i l).failJobOn i cause).lane k).NamesWithin n := by
  have set := State.namesWithin_setLane h (i := i) named
  unfold State.failJobOn
  split
  · rw [State.arbitrate_lane]
    refine (State.jobEvent_endJob _ _ _).namesWithin set (fun x loading => ?_) k
    rw [State.lane_setLane] at loading
    split at loading
    · exact absurd loading left
    · exact room x loading
  · exact set k

/-- The entries that an admitted change of a row gives to lanes name the row. -/
theorem updateEntry_inStore {n : Nat} {p : Profile} {row : Nat} {old new : Record} {e : ApplyEntry} (inside : row < n)
    (he : e ∈ updateEntry p row old new) : e.InStore n := by
  unfold updateEntry at he
  simp only [] at he
  split at he
  · cases he
  · split at he <;> exact Option.some.inj he ▸ inside

/-- The rows that admitted changes name are rows of the store. -/
theorem State.insertVerdict_inside {s : State} (rows : s.store.RowsExact) {m : List Byte} {r : Record} {row : Nat}
    (verdict : s.insertVerdict m = .ok (r, row)) : row < s.store.size := by
  obtain ⟨initialized, _, _, _, _, top, _⟩ := State.insertVerdict_ok verdict
  exact (rows.top initialized top).1

theorem State.updateVerdict_inside {s : State} (rows : s.store.RowsExact) {m : List Byte} {old r : Record} {row : Nat}
    (verdict : s.updateVerdict m = .ok (row, old, r)) : row < s.store.size := by
  obtain ⟨_, _, _, _, _, held⟩ := State.updateVerdict_ok verdict
  exact (rows.live held).1

theorem State.retireVerdict_inside {s : State} (rows : s.store.RowsExact) {m : List Byte} {k : Key} {old : Record} {row : Nat}
    (verdict : s.retireVerdict m = .ok (k, row, old)) : row < s.store.size := by
  obtain ⟨_, _, _, _, _, held⟩ := State.retireVerdict_ok verdict
  exact (rows.live held).1

/-! ### The store under the copy engine's events -/

@[simp] theorem State.examineRow_store (s : State) : s.examineRow.store = s.store := by
  unfold State.examineRow
  (repeat' split) <;> rfl

@[simp] theorem State.takeRow_store (s : State) : s.takeRow.store = s.store := by
  unfold State.takeRow
  (repeat' split) <;> rfl

@[simp] theorem State.completeGrant_store (s : State) : s.completeGrant.store = s.store := by
  rcases s.completeGrant_cases with e | ⟨g, job, _, _, ⟨_, e⟩ | ⟨_, e⟩⟩ <;> rw [e]
  · simp
  · rw [State.arbitrate_store]
    rfl

@[simp] theorem State.freezeExpired_store (s : State) (j : JobNo) : (s.freezeExpired j).store = s.store := by
  rcases s.freezeExpired_cases j with e | ⟨u, _, store, e⟩ <;> rw [e]
  rw [State.arbitrate_store, store]

@[simp] theorem State.sampleExpired_store (s : State) (j : JobNo) : (s.sampleExpired j).store = s.store := by
  unfold State.sampleExpired
  (repeat' split) <;> rfl

/-! ### Every move -/

/-- Nothing is named in a store that STORE_INIT finds. -/
theorem State.NamesFit.size_le_begin {s : State} (h : s.NamesFit) (phase : s.store.phase = .uninitialized) (n : Nat) :
    s.store.size ≤ n := by
  rw [h.rows.size_zero phase]
  exact Nat.zero_le n

/-- The lanes' names after an admitted change. -/
theorem State.NamesFit.lanes_applyChange {s : State} (h : s.NamesFit) {store : Store} (kind : Kind) (row : Nat)
    {entry : Profile → Option ApplyEntry} (named : ∀ p, ∀ e ∈ entry p, e.InStore s.store.size) (i : Slot) :
    ((s.applyChange store kind row entry).lane i).NamesWithin s.store.size := by
  unfold State.applyChange
  rw [State.arbitrate_lane, State.mapJobs_lane, State.lane_mapLanes]
  exact (h.lanes i).feed s.settings kind named

/-- The lanes' names after a grant's end. -/
theorem State.NamesFit.lanes_completeGrant {s : State} (h : s.NamesFit) (i : Slot) :
    (s.completeGrant.lane i).NamesWithin s.store.size := by
  rcases s.completeGrant_cases with e | ⟨g, job, _, _, ⟨_, e⟩ | ⟨_, e⟩⟩ <;> rw [e]
  · exact h.lanes i
  · rw [State.arbitrate_lane]
    exact (State.jobEvent_endOfWork { s with grant := none } g.job).namesWithin h.lanes h.room i
  · rw [State.arbitrate_lane]
    exact State.namesWithin_setLane (s := { s with grant := none }) h.lanes
      ((h.lanes job.slot).link ((s.lane job.slot).tx.take g.frames (.job g.job) none)) i

/-- Each move keeps the lanes' names in the store. -/
theorem State.Moves.lanes_namesWithin {c : Instr} {s t : State} (m : State.Moves c s t) (h : s.NamesFit) (i : Slot) :
    (t.lane i).NamesWithin t.store.size := by
  have lanes := h.lanes
  have event : ∀ {u : State}, State.JobEvent s u → u.store = s.store →
      (u.arbitrate.lane i).NamesWithin u.arbitrate.store.size :=
    fun e store => by
      rw [State.arbitrate_lane, State.arbitrate_store, store]
      exact e.namesWithin lanes h.room i
  cases m with
  | same => exact lanes i
  | reset store settings =>
    have cleared : (s.resetBlocks store).lane i = Lane.reset := by simp [State.lane, State.resetBlocks]
    exact cleared ▸ Lane.reset_namesWithin _
  | begins requested phase => exact (lanes i).mono (h.size_le_begin phase _)
  | completes => exact lanes i
  | inserts m r row verdict =>
    refine (h.lanes_applyChange _ row (fun p e he => ?_) i).mono (by simp)
    exact Option.some.inj he ▸ State.insertVerdict_inside h.rows verdict
  | updates m row old r verdict =>
    refine (h.lanes_applyChange _ row (fun p e he => ?_) i).mono (by simp)
    exact updateEntry_inStore (State.updateVerdict_inside h.rows verdict) he
  | retires m k row old verdict =>
    refine (h.lanes_applyChange _ row (fun p e he => ?_) i).mono (by simp)
    exact Option.some.inj he ▸ State.retireVerdict_inside h.rows verdict
  | setting => exact lanes i
  | setAudit interval =>
    rw [State.lane_mapLanes]
    unfold Lane.restartAudit
    split
    · exact ⟨(lanes i).queue, (lanes i).repairs, (lanes i).offset, (lanes i).next_audit⟩
    · exact lanes i
  | turn k l turns => exact State.namesWithin_setLane lanes (turns.namesWithin rfl (h.links.bursts k) (lanes k)) i
  | identifies k present =>
    simp only [State.identify, State.lane_setLane_self, State.setLane_setLane]
    exact State.namesWithin_setLane lanes ((lanes k).view present true).identify i
  | unidentifies k l _ departure =>
    refine State.namesWithin_setLane lanes (i := k) ?_ i
    rcases departure with rfl | ⟨rfl, _⟩
    · exact ((lanes k).view false _).vacate _
    · exact ((lanes k).view _ false).extract
  | identified k l _ ending =>
    refine State.namesWithin_setLane lanes (i := k) ?_ i
    rcases ending with rfl | ⟨d, rfl⟩
    · exact (lanes k).fault _
    · exact (lanes k).identified d
  | masters => exact lanes i
  | loses k l cause _ departure =>
    rw [State.failJobOn_store]
    have left : l.NamesWithin s.store.size ∧ l.state ≠ .loading := by
      rcases departure with rfl | ⟨rfl, _⟩ | rfl
      · exact ⟨((lanes k).view false _).vacate _, by simp [Lane.vacate, Lane.goto]⟩
      · exact ⟨((lanes k).view _ false).extract, by simp [Lane.extract, Lane.goto]⟩
      · exact ⟨(lanes k).fault _, by simp [Lane.fault, Lane.goto]⟩
    exact State.namesWithin_loses lanes h.room left.1 left.2 cause i
  | starts m k facts policy j =>
    unfold State.startJob
    rw [State.arbitrate_lane, State.arbitrate_store]
    have loaded : ({ (s.lane k).goto .loading with cause := none } : Lane).NamesWithin s.store.size :=
      (lanes k).of_live rfl fun e => by cases e
    exact State.namesWithin_setLane (s := s.setJob j (some (Job.accepted k facts.profile policy))) lanes loaded i
  | aborts k j => exact event (s.jobEvent_endJob j _) (by simp)
  | retireJob k b j digest =>
    rw [State.arbitrate_lane]
    have released := State.namesWithin_setLane lanes (i := k) ((lanes k).link (s.lane k).tx.release)
    refine ((State.jobEvent_reportRetired _ j b.frames digest).namesWithin released (fun x loading => ?_) i).mono (by simp)
    rw [State.lane_setLane] at loading
    split at loading
    · exact h.room k loading
    · exact h.room x loading
  | examines =>
    have same : s.examineRow.lane i = s.lane i := by
      unfold State.examineRow
      (repeat' split) <;> rfl
    rw [same, State.examineRow_store]
    exact lanes i
  | takes =>
    have same : s.takeRow.lane i = s.lane i := by
      unfold State.takeRow
      (repeat' split) <;> rfl
    rw [same, State.takeRow_store]
    exact lanes i
  | grants =>
    rw [State.completeGrant_store]
    exact h.lanes_completeGrant i
  | freezes j =>
    rcases s.freezeExpired_cases j with e | ⟨u, happened, store, e⟩ <;> rw [e]
    · exact lanes i
    · exact event happened store
  | samples j =>
    have same : (s.sampleExpired j).lane i = s.lane i := by
      unfold State.sampleExpired
      (repeat' split) <;> rfl
    rw [same, State.sampleExpired_store]
    exact lanes i
  | noticed => exact lanes i

/-- Each move keeps the jobs' names in the store. -/
theorem State.Moves.jobNames {c : Instr} {s t : State} (m : State.Moves c s t) (h : s.NamesFit) : t.JobNames t.store.size := by
  have jobs := h.jobs
  cases m with
  | same => exact jobs
  | reset => exact fun j job hj => by simp [State.job, State.resetBlocks] at hj
  | begins requested phase => exact State.JobNames.mono (jobs.of_jobs rfl) (h.size_le_begin phase _)
  | completes => exact jobs.of_jobs rfl
  | inserts m r row verdict =>
    exact (jobs.applyChange (by simp) _ (State.insertVerdict_inside h.rows verdict) _).mono (by simp)
  | updates m row old r verdict =>
    exact (jobs.applyChange (by simp) _ (State.updateVerdict_inside h.rows verdict) _).mono (by simp)
  | retires m k row old verdict =>
    exact (jobs.applyChange (by simp) _ (State.retireVerdict_inside h.rows verdict) _).mono (by simp)
  | setting => exact jobs.of_jobs rfl
  | setAudit => exact jobs.of_jobs rfl
  | turn => exact jobs.of_jobs rfl
  | identifies => exact jobs.of_jobs rfl
  | unidentifies => exact jobs.of_jobs rfl
  | identified => exact jobs.of_jobs rfl
  | masters => exact jobs.of_jobs rfl
  | loses i l cause =>
    have set : (s.setLane i l).JobNames s.store.size := jobs.of_jobs rfl
    exact (set.failJobOn rfl i cause).mono (by simp)
  | starts m i facts policy j =>
    have set := jobs.setJob_some j (Job.accepted_namesWithin i facts.profile policy)
    have loaded : ((s.setJob j (some (Job.accepted i facts.profile policy))).setLane i
        { (s.lane i).goto .loading with cause := none }).JobNames s.store.size := set.of_jobs rfl
    exact (loaded.arbitrate rfl).mono (by simp [State.startJob])
  | aborts i j => exact ((jobs.endJob j _).arbitrate (by simp)).mono (by simp)
  | retireJob i b j digest awaited =>
    have released : (s.setLane i { s.lane i with tx := (s.lane i).tx.release }).JobNames s.store.size := jobs.of_jobs rfl
    have listed := h.links.bursts i b (Transmitter.awaited_outstanding awaited)
    exact ((released.reportRetired j listed digest).arbitrate (by simp)).mono (by simp)
  | examines => exact (jobs.examineRow rfl).mono (by simp)
  | takes => exact jobs.takeRow.mono (by simp)
  | grants => exact (jobs.completeGrant rfl).mono (by simp)
  | freezes j => exact (jobs.freezeExpired rfl j).mono (by simp)
  | samples j => exact (jobs.sampleExpired j).mono (by simp)
  | noticed j job hj => exact jobs.noticed hj

/-- The store grows at most, but for a reset, which clears transmitters and grant. -/
theorem State.Moves.size_le {c : Instr} {s t : State} (m : State.Moves c s t) (h : s.NamesFit) :
    State.LinksReset t ∨ s.store.size ≤ t.store.size := by
  cases m with
  | reset => exact .inl ⟨fun i => by simp [State.lane, State.resetBlocks], rfl⟩
  | begins requested phase => exact .inr (h.size_le_begin phase _)
  | _ => exact .inr (by simp [State.startJob, State.identify, Store.complete])

/-- Nothing is named after a reset. -/
theorem State.LinksReset.linkNames {t : State} (reset : State.LinksReset t) (n : Nat) : t.LinkNames n :=
  ⟨fun i => by simp [reset.lanes, Lane.reset, Transmitter.reset], by simp [reset.grant]⟩

/-- Each move keeps what bursts and the grant name in the store. -/
theorem State.Moves.linkNames {c : Instr} {s t : State} (m : State.Moves c s t) (h : s.NamesFit) :
    t.LinkNames t.store.size := by
  rcases m.size_le h with reset | grows
  · exact reset.linkNames _
  rcases m.linkSteps with ⟨_, reset⟩ | steps
  · exact reset.linkNames _
  refine ⟨fun i b out f hf => Frame.InStore.mono grows ?_, fun g hg f hf => Frame.InStore.mono grows ?_⟩
  · rcases (steps.lanes i).frames out with ⟨a, before, e⟩ | given
    · exact h.links.bursts i a before f (e ▸ hf)
    · exact given.inStore (h.lanes i).queue h.links.grant f hf
  · exact (steps.grant g hg).inStore h.links.grant (fun j x hj => (h.jobs j x hj).dirty) f hf

/-- Each move keeps every name in the store. -/
theorem State.Moves.namesInStore {c : Instr} {s t : State} (m : State.Moves c s t) (h : s.NamesFit) : t.NamesInStore :=
  State.namesInStore_of_parts (m.lanes_namesWithin h) (m.linkNames h) (m.jobNames h)

theorem State.NamesInStore.of_same {s t : State} (h : s.NamesInStore) (same : State.SamePart s t) : t.NamesInStore where
  entries i := by rw [same.lane_eq, same.store]; exact h.entries i
  repairs i := by rw [same.lane_eq, same.store]; exact h.repairs i
  next_audit i := by rw [same.lane_eq, same.store]; exact h.next_audit i
  bursts i := by rw [same.lane_eq, same.store]; exact h.bursts i
  grant := by rw [same.grant, same.store]; exact h.grant
  dirty j := by rw [same.job_eq, same.store]; exact h.dirty j
  cursors j := by rw [same.job_eq, same.store]; exact h.cursors j
  progress j := by rw [same.job_eq]; exact h.progress j
  verify j := by rw [same.job_eq, same.store]; exact h.verify j

/-- Time names nothing. -/
theorem State.NamesInStore.tick {s : State} (h : s.NamesInStore) : s.tick.NamesInStore := by
  unfold State.tick
  split
  · exact h
  · have entry : ∀ {j job}, (s.mapJobs Job.tick).job j = some job → ∃ before, s.job j = some before ∧ before.tick = job :=
      fun {j _} hj => Option.map_eq_some_iff.1 ((s.job_mapJobs Job.tick j).symm.trans hj)
    refine ⟨fun i => ?_, fun i => ?_, fun i => ?_, fun i => ?_, h.grant, fun j job hj => ?_, fun j job hj => ?_,
      fun j job hj => ?_, fun j job hj => ?_⟩
    · rw [State.mapJobs_lane, State.lane_mapLanes]; exact h.entries i
    · rw [State.mapJobs_lane, State.lane_mapLanes]; exact h.repairs i
    · rw [State.mapJobs_lane, State.lane_mapLanes]; exact h.next_audit i
    · rw [State.mapJobs_lane, State.lane_mapLanes]; exact h.bursts i
    · obtain ⟨before, hb, rfl⟩ := entry hj; exact h.dirty j before hb
    · obtain ⟨before, hb, rfl⟩ := entry hj; exact h.cursors j before hb
    · obtain ⟨before, hb, rfl⟩ := entry hj; exact h.progress j before hb
    · obtain ⟨before, hb, rfl⟩ := entry hj; exact h.verify j before hb

/-- Settles O60: what lanes, jobs, bursts and grant name stays in the store under each move of the part and as time passes. -/
theorem step_keepsNamesInStore : Obligations.Step_KeepsNamesInStore := by
  intro s t rows agree live names run
  unfold step at run
  split at run
  · injection run with run
    exact run ▸ names.tick
  · next c rest _ =>
    obtain ⟨a, b, before, move, after⟩ := exec_steps c run
    have fit : ({ s with pending := rest } : State).NamesFit :=
      (State.NamesFit.of_namesInStore rows agree live names).of_same ⟨rfl, rfl, rfl, rfl, rfl, rfl⟩
    exact (move.namesInStore (fit.of_same before)).of_same after

end Sys2Proof.Machine
end

section
/-! SUPPORT. The entry into LIVE (05, R114; 07, R171): of all that a command can do only the completion of a job takes a lane there,
and then with nothing of the job outstanding. -/

namespace Sys2Proof.Machine

/-! ### The cut-over -/

/-- The lane has gone from LOADING to LIVE at the completion of the job that targeted it. -/
structure State.CutsOver (s t : State) (i : Slot) : Prop where
  loading : (s.lane i).state = .loading
  idle : (t.lane i).tx.phase = .idle
  job : ∃ j job, s.TargetedBy i j ∧ t.job j = some job ∧ job.slot = i ∧ job.state = .completed
  live : (t.lane i).live = Live.start s.settings.interval

section
variable {s t : State} {i : Slot}

/-- What came before the cut-over left the lane's state, the job on it and the settings. -/
theorem State.CutsOver.of_before {m : State} (h : State.CutsOver m t i) (state : (m.lane i).state = (s.lane i).state)
    (targets : ∀ j, m.TargetedBy i j → s.TargetedBy i j) (settings : m.settings = s.settings) : State.CutsOver s t i := by
  obtain ⟨j, job, target, rest⟩ := h.job
  exact ⟨state ▸ h.loading, h.idle, ⟨j, job, targets j target, rest⟩, settings ▸ h.live⟩

/-- The arbiter's choice leaves the lane and the job's outcome. -/
theorem State.CutsOver.arbitrate (h : State.CutsOver s t i) : State.CutsOver s t.arbitrate i := by
  obtain ⟨j, job, target, hj, slot, completed⟩ := h.job
  refine ⟨h.loading, by rw [State.arbitrate_lane]; exact h.idle, ?_, by rw [State.arbitrate_lane]; exact h.live⟩
  have kept : t.arbitrate.job j = t.job j ∨ ∃ x, t.job j = some x ∧ t.arbitrate.job j = some x.opened := t.arbitrate_job j
  rcases kept with e | ⟨x, hx, e⟩
  · exact ⟨j, job, target, e.trans hj, slot, completed⟩
  · obtain rfl : x = job := Option.some.inj (hx.symm.trans hj)
    exact ⟨j, x.opened, target, e, (Job.opened_slot x).trans slot, (Job.opened_state x).trans completed⟩

/-- Fields of other blocks do not matter. -/
theorem State.CutsOver.of_same {a b : State} (h : State.CutsOver a b i) (before : State.SamePart s a)
    (after : State.SamePart b t) : State.CutsOver s t i := by
  obtain ⟨j, job, target, hj, rest⟩ := h.job
  refine ⟨before.lane_eq i ▸ h.loading, after.lane_eq i ▸ h.idle, ⟨j, job, ?_, (after.job_eq j).trans hj, rest⟩,
    after.lane_eq i ▸ before.settings ▸ h.live⟩
  rwa [State.TargetedBy, ← before.job_eq j]

/-! ### The end of a job -/

/-- A lane that is LIVE after a job's end was so before, or the job has completed and was on it. -/
theorem State.live_of_endJob {j : JobNo} {job last : Job} (hj : s.job j = some job) (working : job.state.working = true)
    (slot : last.slot = job.slot) {outcome : JobState}
    (idle : outcome = .completed → (s.lane job.slot).tx.phase = .idle)
    (live : (((s.setJob j (some last)).endJob j outcome).lane i).state = .live) :
    (s.lane i).state = .live ∨ State.CutsOver s ((s.setJob j (some last)).endJob j outcome) i := by
  rw [← slot] at idle
  have ended := State.endJob_eq (State.job_setJob_self s j (some last)) outcome
  have lane : ((s.setJob j (some last)).endJob j outcome).lane i =
      if i = last.slot then (s.lane last.slot).jobEnded outcome s.settings.interval else s.lane i :=
    (congrArg (fun u : State => u.lane i) ended).trans (State.lane_setLane (s.setJob j (some last)) ..)
  by_cases here : i = last.slot
  · rw [if_pos here, ← here] at lane
    by_cases loading : (s.lane i).state = .loading
    · by_cases completed : outcome = .completed
      · subst completed
        rw [Lane.jobEnded_live loading] at lane
        have target : s.TargetedBy i j := ⟨job, hj, working, slot.symm.trans here.symm⟩
        refine .inr ⟨loading, ?_, ⟨j, last.ended .completed, target, ?_, here.symm, rfl⟩, ?_⟩
        · rw [lane]
          exact here ▸ idle rfl
        · exact (congrArg (fun u : State => u.job j) ended).trans (State.job_setJob_self (s.setJob j (some last)) j _)
        · rw [lane]
      · rw [lane, Lane.jobEnded_loading loading completed] at live
        cases live
    · rw [lane, Lane.jobEnded_of_ne loading] at live
      exact .inl live
  · rw [lane, if_neg here] at live
    exact .inl live

/-- A lane that is LIVE after an event of a job was so before, or the event has completed the job. -/
theorem State.JobMoves.live {j : JobNo} {job : Job} {q : Prop} (m : State.JobMoves s j job q t) (hj : s.job j = some job)
    (working : job.state.working = true) (idle : q → (s.lane job.slot).tx.phase = .idle) (live : (t.lane i).state = .live) :
    (s.lane i).state = .live ∨ State.CutsOver s t i := by
  cases m with
  | same => exact .inl live
  | keeps => exact .inl live
  | ends last outcome slot _ hq => exact State.live_of_endJob hj working slot (fun _ => idle hq) live

/-- The choice that follows an event changes no lane. -/
theorem State.live_arbitrate {u : State} (h : (u.lane i).state = .live → (s.lane i).state = .live ∨ State.CutsOver s u i)
    (live : (u.arbitrate.lane i).state = .live) : (s.lane i).state = .live ∨ State.CutsOver s u.arbitrate i := by
  rw [State.arbitrate_lane] at live
  exact (h live).imp id State.CutsOver.arbitrate

/-! ### The copy engine's events -/

/-- A retired burst may complete its job: the lane's transmitter has just been released. -/
theorem State.live_reportRetired (h : s.Coherent) {k : Slot} {b : Burst} {j : JobNo} (awaited : (s.lane k).tx.awaited = some b)
    (client : b.client = .job j) (digest : Option Word32) {l : Lane} (released : l = { s.lane k with tx := (s.lane k).tx.release })
    (live : (((s.setLane k l).reportRetired j b.frames digest).lane i).state = .live) :
    (s.lane i).state = .live ∨ State.CutsOver s ((s.setLane k l).reportRetired j b.frames digest) i := by
  obtain ⟨job, hj, working, rfl⟩ := h.jobs.bursts k b (Transmitter.awaited_outstanding awaited) j client
  have lane := s.lane_setLane_self job.slot l
  have state : ((s.setLane job.slot l).lane i).state = (s.lane i).state := by
    rw [State.lane_setLane]
    split
    · next e => rw [e, released]
    · rfl
  have nothing : ((s.setLane job.slot l).lane job.slot).tx.outstanding = none := by rw [lane, released]; rfl
  have idle : ((s.setLane job.slot l).lane job.slot).tx.phase = .idle := by rw [lane, released]; rfl
  have reported := State.reportRetired_moves (s := s.setLane job.slot l) hj working nothing b.frames digest
  rw [← state]
  exact (reported.live hj working (fun _ => idle) live).imp id fun cut => cut.of_before state (fun _ => id) rfl

theorem State.live_completeGrant (h : s.Coherent) (sound : s.LinksSound) (live : (s.completeGrant.lane i).state = .live) :
    (s.lane i).state = .live ∨ State.CutsOver s s.completeGrant i := by
  rcases s.completeGrant_cases with e | ⟨g, job, hg, hj, ⟨_, e⟩ | ⟨_, e⟩⟩ <;> rw [e] at live ⊢
  · exact .inl live
  · have working := h.working_of_grant hg hj
    have event := State.endOfWork_moves (s := { s with grant := none }) hj
    refine State.live_arbitrate (fun live => ?_) live
    exact (event.live hj working (fun done => (sound.lanes job.slot).idle_iff.2 done.2) live).imp id
      fun cut => cut.of_before rfl (fun _ => id) rfl
  · refine .inl ?_
    rw [State.arbitrate_lane, State.handOver, State.lane_setLane] at live
    split at live
    · next e => exact e ▸ live
    · exact live

theorem State.live_freezeExpired (sound : s.LinksSound) (j : JobNo) :
    ((s.freezeExpired j).lane i).state = .live → (s.lane i).state = .live ∨ State.CutsOver s (s.freezeExpired j) i := by
  unfold State.freezeExpired
  split
  · next job hj =>
    split
    · next due =>
      have working : job.state.working = true := by
        revert due
        cases job.state <;> simp [JobState.frozen, JobState.working]
      split
      · have lane : ∀ k, ((s.setJob j (some job.thaw)).closeGrant j).lane k = s.lane k := fun k => by
          unfold State.closeGrant
          (repeat' split) <;> rfl
        have thawed : ((s.setJob j (some job.thaw)).closeGrant j).job j = some job.thaw := by simp
        have event := State.endOfWork_moves thawed
        refine State.live_arbitrate fun live => ?_
        have idle : (s.lane job.slot).tx.outstanding = none → (s.lane job.slot).tx.phase = .idle :=
          (sound.lanes job.slot).idle_iff.2
        refine (event.live thawed rfl (fun done => ?_) live).imp (fun live => lane i ▸ live) fun cut =>
          cut.of_before (by rw [lane]) (fun k target => ?_) (by simp)
        · rw [lane] at done ⊢
          exact idle done.2
        · refine (State.targetedBy_setJob hj (after := job.thaw) rfl (by rw [working]; rfl) i k).1 ?_
          rwa [State.TargetedBy, State.closeGrant_job] at target
      · exact State.live_arbitrate fun live => State.live_of_endJob hj working
          (last := { job with freezeAttempts := job.freezeAttempts + 1 }) rfl (by simp) live
    · exact .inl
  · exact .inl

/-- An admitted change moves no lane to another state. -/
theorem State.live_of_applyChange {store : Store} {kind : Kind} {row : Nat} {entry : Profile → Option ApplyEntry}
    (live : ((s.applyChange store kind row entry).lane i).state = .live) : (s.lane i).state = .live := by
  unfold State.applyChange at live
  rw [State.arbitrate_lane, State.mapJobs_lane, State.lane_mapLanes, (Lane.feed_front ..).state] at live
  exact live

/-! ### Every command -/

/-- Each move of the part takes a lane to LIVE only as the cut-over of the job on it. -/
theorem State.Moves.live {c : Instr} (m : State.Moves c s t) (h : s.Coherent) (sound : s.LinksSound)
    (live : (t.lane i).state = .live) : (s.lane i).state = .live ∨ State.CutsOver s t i := by
  have set : ∀ {k l}, l.state ≠ .live → ((s.setLane k l).lane i).state = .live → (s.lane i).state = .live := by
    intro k l other live
    rw [State.lane_setLane] at live
    split at live
    · exact absurd live other
    · exact live
  cases m with
  | same => exact .inl live
  | reset store settings =>
    have cleared : (s.resetBlocks store).lane i = Lane.reset := by simp [State.lane, State.resetBlocks]
    cases (congrArg Lane.state cleared).symm.trans live
  | begins => exact .inl live
  | completes => exact .inl live
  | inserts => exact .inl (State.live_of_applyChange live)
  | updates => exact .inl (State.live_of_applyChange live)
  | retires => exact .inl (State.live_of_applyChange live)
  | setting => exact .inl live
  | setAudit interval =>
    rw [State.lane_mapLanes, (Lane.restartAudit_front ..).state] at live
    exact .inl live
  | turn k l event =>
    refine .inl ?_
    rw [State.lane_setLane] at live
    split at live
    · next e => exact e ▸ (event.turned (h.lanes k)).live live
    · exact live
  | identifies k present =>
    simp only [State.identify, State.lane_setLane_self, State.setLane_setLane, State.setLane_master] at live
    exact .inl (set (by simp [Lane.identify, Lane.goto]) live)
  | unidentifies k l _ departure =>
    refine .inl (set (k := k) (l := l) ?_ live)
    rcases departure with rfl | ⟨rfl, _⟩ <;> simp [Lane.vacate, Lane.extract, Lane.goto]
  | identified k l attempt ending =>
    obtain ⟨_, state⟩ := (h.lanes k).identificationEnds (h.fifo.attempting attempt) ending
    exact .inl (set (k := k) (l := l) (by rcases state with e | e <;> simp [e]) live)
  | masters => exact .inl live
  | loses k l cause loading departure =>
    have left : l.state ≠ .loading ∧ l.state ≠ .live := by
      rcases departure with rfl | ⟨rfl, _⟩ | rfl <;> simp [Lane.vacate, Lane.extract, Lane.fault, Lane.goto]
    obtain ⟨j, held⟩ := (h.jobs.loading_iff k).1 loading
    obtain ⟨job, hj, _, _⟩ := id held
    have out : ((s.setLane k l).lane k).state ≠ .loading := by rw [State.lane_setLane_self]; exact left.1
    rw [State.failJobOn_eq out held hj fun n target => h.jobs.one_job k n j target held, State.jobLost,
      State.arbitrate_lane] at live
    exact .inl (set left.2 live)
  | starts m k facts policy j =>
    unfold State.startJob at live
    rw [State.arbitrate_lane] at live
    exact .inl (set (k := k) (by simp [Lane.goto]) live)
  | aborts k j found =>
    obtain ⟨job, hj, working, _⟩ := State.jobOn_targets found
    refine State.live_arbitrate (fun live => ?_) live
    have ended := State.live_of_endJob (i := i) (outcome := .aborted) hj working (last := job) rfl (by simp)
    rw [State.setJob_same hj] at ended
    exact ended live
  | retireJob k b j digest awaited client => exact State.live_arbitrate (State.live_reportRetired h awaited client digest rfl) live
  | examines =>
    unfold State.examineRow at live
    exact .inl (by (repeat' split at live) <;> exact live)
  | takes =>
    unfold State.takeRow at live
    exact .inl (by (repeat' split at live) <;> exact live)
  | grants => exact State.live_completeGrant h sound live
  | freezes j => exact State.live_freezeExpired sound j live
  | samples j =>
    unfold State.sampleExpired at live
    exact .inl (by (repeat' split at live) <;> exact live)
  | noticed => exact .inl live

end

/-- Settles O49: the only move that takes a lane to LIVE is the completion of the job on it, which no burst holds up. -/
theorem live_onlyAtCutOver : Obligations.Live_OnlyAtCutOver := by
  intro c s t i agree sound run before live
  obtain ⟨a, b, same, move, after⟩ := exec_steps c run
  have h := (agree.coherent sound).of_same same
  have links : a.LinksSound := ⟨fun k => same.lane_eq k ▸ sound.lanes k, same.grant ▸ sound.grant⟩
  rw [after.lane_eq] at live
  rcases move.live h links live with was | cut
  · exact absurd (same.lane_eq i ▸ was) before
  · obtain ⟨loading, idle, job, values⟩ := cut.of_same same after
    exact ⟨loading, idle, job, values⟩

end Sys2Proof.Machine
end

section
/-! SUPPORT. The acknowledgements of bursts, the fills of live lanes and the end of a grant (04, R77 and R84 to R92; 05, R100 to R110;
06, R124 to R138): what each makes of the part, in the statements' terms. -/

namespace Sys2Proof.Machine

/-! ### The BURST_ACK unit (10, R203) -/

/-- Four bytes of a message as one word, the first the most significant. -/
theorem ofNat_ofBytes_four (a b c d : Byte) : BitVec.ofNat 32 (ofBytes [a, b, c, d]) = a ++ b ++ c ++ d := by
  have join : ∀ {n : Nat} (x : BitVec n) (y : Byte), (x ++ y).toNat = x.toNat * 256 + y.toNat := fun x y => by
    rw [BitVec.toNat_append, ← Nat.shiftLeft_add_eq_or_of_lt y.isLt, Nat.shiftLeft_eq]
  have value : (a ++ b ++ c ++ d).toNat = ofBytes [a, b, c, d] := by
    rw [join, join, join]
    simp [ofBytes]
  have small : ofBytes [a, b, c, d] < 2 ^ 32 := by simpa using ofBytes_lt [a, b, c, d]
  refine BitVec.eq_of_toNat_eq ?_
  rw [BitVec.toNat_ofNat, Nat.mod_eq_of_lt small]
  exact value.symm

/-- Eight bytes, one by one. -/
theorem eq_of_length_eq_eight {unit : List Byte} (eight : unit.length = 8) :
    ∃ code seq status present a b c d : Byte, unit = [code, seq, status, present, a, b, c, d] :=
  match unit, eight with
  | [code, seq, status, present, a, b, c, d], _ => ⟨code, seq, status, present, a, b, c, d, rfl⟩

/-- How a unit of code 1 with its check reads. -/
theorem readReply_code_one (seq status present a b c d : Byte) :
    readReply ([1, seq, status, present, a, b, c, d] ++ [burstCheck [1, seq, status, present, a, b, c, d]]) =
      if status.toNat ≤ 1 then
        some (.ack seq (status.toNat == 0) (if present = 0 then none else some (a ++ b ++ c ++ d)))
      else none := by
  have matched := (checkMatches_iff _).2 ⟨[1, seq, status, present, a, b, c, d], rfl⟩
  have absent : present.toNat = 0 ↔ present = 0 := Byte.toNat_eq_iff present (by decide)
  rw [readReply, if_pos matched, ← ofNat_ofBytes_four]
  simp only [← absent]
  exact if_congr (and_iff_right rfl) rfl rfl

/-- What a unit read as a BURST_ACK is. -/
theorem readReply_eq_ack_iff (reply : List Byte) (seq : Byte) (ok : Bool) (digest : Option Word32) :
    readReply reply = some (.ack seq ok digest) ↔
      ∃ present a b c d : Byte,
        let unit := [1, seq, if ok then 0 else 1, present, a, b, c, d]
        reply = unit ++ [burstCheck unit] ∧ digest = if present = 0 then none else some (a ++ b ++ c ++ d) := by
  constructor
  · intro read
    have shape : ∃ seq status present a b c d : Byte,
        reply = [1, seq, status, present, a, b, c, d] ++ [burstCheck [1, seq, status, present, a, b, c, d]] := by
      unfold readReply at read
      split at read
      · next matched =>
        obtain ⟨unit, rfl⟩ := (checkMatches_iff reply).1 matched
        split at read
        · next one =>
          split at read
          · next nine =>
            obtain ⟨code, seq, status, present, a, b, c, d, rfl⟩ :=
              eq_of_length_eq_eight (Nat.succ_injective (by simpa using nine.1))
            have : code = 1 := (Byte.toNat_eq_iff code (by decide)).1 one
            exact ⟨seq, status, present, a, b, c, d, by rw [this]⟩
          · cases read
        · split at read <;> cases read
        · split at read <;> cases read
        · cases read
      · cases read
    obtain ⟨seq', status, present, a, b, c, d, rfl⟩ := shape
    rw [readReply_code_one] at read
    split at read
    · next small =>
      cases read
      refine ⟨present, a, b, c, d, ?_, rfl⟩
      have code : status = if (status.toNat == 0) = true then 0 else 1 := by
        split
        · next zero => exact (Byte.toNat_eq_iff status (n := 0) (by decide)).1 (by simpa using zero)
        · next other =>
          have : status.toNat ≠ 0 := by simpa using other
          exact (Byte.toNat_eq_iff status (n := 1) (by decide)).1 (by omega)
      rw [← code]
    · cases read
  · rintro ⟨present, a, b, c, d, rfl, rfl⟩
    rw [readReply_code_one]
    cases ok <;> rfl

/-! ### Acknowledgements (04, R84 to R92) -/

theorem execBurstAck_read {s : State} (awake : s.inReset = false) (i : Slot) {reply : List Byte} {seq : Byte} {ok : Bool}
    {digest : Option Word32} (read : readReply reply = some (.ack seq ok digest)) :
    exec (.burstAck i reply) s = .next (s.takeAck i seq ok digest) := by
  refine congrArg Host.Outcome.next ((s.unlessReset_run _ awake).trans ?_)
  rw [read]

theorem execBurstAck_unread (s : State) (i : Slot) {reply : List Byte}
    (unread : ∀ seq ok digest, readReply reply ≠ some (.ack seq ok digest)) : exec (.burstAck i reply) s = .next s := by
  refine congrArg Host.Outcome.next (State.unlessReset_same ?_)
  split
  · next seq ok digest read => exact absurd read (unread seq ok digest)
  · rfl

/-- Only a transmitter in AWAITING has a burst that awaits its acknowledgement. -/
theorem Transmitter.awaited_eq_none {t : Transmitter} (other : t.phase ≠ .awaiting) : t.awaited = none := by
  unfold Transmitter.awaited
  split
  · contradiction
  · rfl
  · rfl

/-- Outside AWAITING an acknowledgement is ignored (04, R88). -/
theorem State.takeAck_ignored {s : State} {i : Slot} (other : (s.lane i).tx.phase ≠ .awaiting) (seq : Byte) (ok : Bool)
    (digest : Option Word32) : s.takeAck i seq ok digest = s := by
  rw [State.takeAck, Transmitter.awaited_eq_none other]

/-- An acknowledgement with another sequence number is ignored (04, R88). -/
theorem State.takeAck_mismatched {s : State} {i : Slot} {b : Burst} (awaited : (s.lane i).tx.awaited = some b) {seq : Byte}
    (other : b.seq ≠ seq) (ok : Bool) (digest : Option Word32) : s.takeAck i seq ok digest = s := by
  rw [State.takeAck, awaited]
  exact if_neg other

/-- A burst owes a digest exactly when its last frame asks for one (04, R85). -/
theorem Burst.owesDigest_eq_false {b : Burst} (plain : ∀ f ∈ b.frames.getLast?, f.asksDigest = false) :
    b.owesDigest = false := by
  unfold Burst.owesDigest
  split
  · next f last => exact plain f last
  · rfl

/-- A matching OK with the digest owed retires the burst (04, R84 and R85). -/
theorem State.takeAck_retires {s : State} {i : Slot} {b : Burst} (awaited : (s.lane i).tx.awaited = some b)
    {digest : Option Word32} (paid : (∀ f ∈ b.frames.getLast?, f.asksDigest = false) ∨ digest.isSome = true) :
    s.takeAck i b.seq true digest = s.retireBurst i b digest := by
  have retired : b.retiredBy true digest = true := by
    rcases paid with plain | digested
    · simp [Burst.retiredBy, Burst.owesDigest_eq_false plain]
    · simp [Burst.retiredBy, digested]
  rw [State.takeAck, awaited]
  exact (if_pos rfl).trans (if_pos retired)

/-- A job's burst is reported to the job (04, R92). -/
theorem State.retireBurst_job (s : State) (i : Slot) {b : Burst} {j : JobNo} (client : b.client = .job j)
    (digest : Option Word32) :
    s.retireBurst i b digest =
      (({ s with lanes := s.lanes.set i { s.lane i with tx := (s.lane i).tx.cleared } } : State).reportRetired j b.frames
        digest).arbitrate := by
  rw [State.retireBurst, client]
  rfl

/-- A LIVE lane's burst is retired at the lane (04, R91). -/
theorem State.retireBurst_live (s : State) (i : Slot) {b : Burst} (client : b.client = .applyQueue)
    (digest : Option Word32) :
    s.retireBurst i b digest =
      s.setLane i (({ s.lane i with tx := (s.lane i).tx.cleared } : Lane).retiredLive s.store s.settings b digest) := by
  rw [State.retireBurst, client]
  rfl

/-- A burst without AUDIT leaves nothing to compare (04, R91). -/
theorem Lane.retiredLive_plain (store : Store) (set : Settings) (l : Lane) {b : Burst}
    (plain : ∀ f ∈ b.frames.getLast?, f.asksDigest = false) (digest : Option Word32) :
    l.retiredLive store set b digest = l := by
  unfold Lane.retiredLive
  split
  · next last _ => exact nomatch plain _ last
  · rfl

/-- An audit's digests are compared (05, R109). -/
theorem Lane.retiredLive_audit (store : Store) (set : Settings) (l : Lane) {b : Burst} {segment : Nat} {master : Word32}
    (last : b.frames.getLast? = some (.audit segment)) (snapshot : b.snapshot = some master) (board : Word32) :
    l.retiredLive store set b (some board) = l.compareAudit store set segment board master := by
  unfold Lane.retiredLive
  rw [last, snapshot]

/-- An audit with equal digests (05, R109). -/
theorem Lane.compareAudit_equal (store : Store) (set : Settings) (l : Lane) (segment : Nat) (digest : Word32) :
    l.compareAudit store set segment digest digest = l := if_pos rfl

/-- An audit with another digest (05, R109). -/
theorem Lane.compareAudit_differs (store : Store) (set : Settings) (l : Lane) (segment : Nat) {board master : Word32}
    (differs : board ≠ master) : l.compareAudit store set segment board master = l.mismatch store set segment :=
  if_neg differs

/-- A mismatch of a segment under repair is only counted (05, R109 and R110). -/
theorem Lane.mismatch_listed (store : Store) (set : Settings) {l : Lane} {segment : Nat} (listed : segment ∈ l.live.repairs) :
    l.mismatch store set segment =
      { l with live := { l.live with mismatches := min 65535 (l.live.mismatches + 1) }, mark := true } := if_pos listed

/-- A mismatch of another segment begins its repair (05, R110). -/
theorem Lane.mismatch_unlisted (store : Store) (set : Settings) {l : Lane} {segment : Nat} (unlisted : segment ∉ l.live.repairs) :
    l.mismatch store set segment =
      Lane.repairStep store set
        { l with
          mark := true
          live :=
            { l.live with
              mismatches := min 65535 (l.live.mismatches + 1), repairs := l.live.repairs ++ [segment] } } := if_neg unlisted

/-- An ACK_TIMEOUT without a burst awaited, or with time left, changes nothing (log 2, log 3). -/
theorem execAckTimeout_undue {s : State} {i : Slot}
    (undue : (s.lane i).tx.phase ≠ .awaiting ∨ (s.lane i).tx.ackTimer ≠ some 0) : exec (.ackTimeout i) s = .next s := by
  refine congrArg Host.Outcome.next (State.unlessReset_same ?_)
  unfold State.ackExpired
  split
  · next b awaited =>
    refine if_neg fun due => ?_
    rcases undue with other | left
    · rw [Transmitter.awaited_eq_none other] at awaited
      cases awaited
    · exact left ((Timer.ranOut_iff _).1 due)
  · rfl

/-- Settles O31: each acknowledgement by what it reads as, the burst it finds and the burst's client. -/
theorem burstAck_retiresAndCompares : Obligations.BurstAck_RetiresAndCompares := by
  refine ⟨?_, fun s i reply => ⟨execBurstAck_unread s i, execAckTimeout_undue⟩, readReply_eq_ack_iff, ?_⟩
  · intro s i reply seq ok digest awake read l retired
    rw [execBurstAck_read awake i read]
    refine ⟨fun other => congrArg Host.Outcome.next (State.takeAck_ignored other ..), fun b awaiting out => ?_⟩
    have awaited : (s.lane i).tx.awaited = some b := (Transmitter.awaited_of_awaiting awaiting).trans out
    refine ⟨fun other => congrArg Host.Outcome.next (State.takeAck_mismatched awaited other ..), ?_, ?_⟩
    · rintro rfl rfl client
      refine ⟨fun plain => congrArg Host.Outcome.next ?_, ?_⟩
      · rw [State.takeAck_retires awaited (.inl plain), State.retireBurst_live s i client, Lane.retiredLive_plain _ _ _ plain]
        rfl
      · rintro segment board last rfl snapshot
        refine congrArg Host.Outcome.next ?_
        rw [State.takeAck_retires awaited (.inr rfl), State.retireBurst_live s i client,
          Lane.retiredLive_audit _ _ _ last snapshot, Lane.compareAudit_equal]
        rfl
    · rintro j rfl rfl client paid
      rw [State.takeAck_retires awaited paid, State.retireBurst_job s i client]
  · intro s i reply board master segment b awake awaiting out client last snapshot differs read l counted
    have awaited : (s.lane i).tx.awaited = some b := (Transmitter.awaited_of_awaiting awaiting).trans out
    rw [execBurstAck_read awake i read, State.takeAck_retires awaited (.inr rfl), State.retireBurst_live s i client,
      Lane.retiredLive_audit _ _ _ last snapshot, Lane.compareAudit_differs _ _ _ _ differs]
    refine ⟨fun listed => congrArg Host.Outcome.next ?_, fun unlisted => congrArg Host.Outcome.next ?_⟩
    · exact congrArg (s.setLane i)
        (Lane.mismatch_listed s.store s.settings (l := { s.lane i with tx := (s.lane i).tx.cleared }) listed)
    · exact congrArg (s.setLane i)
        (Lane.mismatch_unlisted s.store s.settings (l := { s.lane i with tx := (s.lane i).tx.cleared }) unlisted)

/-! ### Fills (04, R90; 05, R100 and R104) -/

/-- A lane may fill exactly when it is LIVE, its transmitter IDLE and its queue not empty (04, R90). -/
theorem Lane.mayFill_iff (l : Lane) : l.mayFill = true ↔ l.state = .live ∧ l.tx.phase = .idle ∧ l.live.queue ≠ [] := by
  simp [Lane.mayFill, and_assoc]

/-- A repair step with nothing to repair (05, R111). -/
theorem Lane.repairStep_nil (store : Store) (set : Settings) {l : Lane} (unrepaired : l.live.repairs = []) :
    l.repairStep store set = l := by
  rw [Lane.repairStep, Config.repairStepEntries, Lane.repair, unrepaired]

/-- The dequeue's alarm test in one expression (05, R104). -/
theorem Lane.testClear_eq (set : Settings) (l : Lane) :
    l.testClear set =
      { l with
        live :=
          { l.live with
            alarm := l.live.alarm &&
              !decide (set.mode = .auto ∧ l.live.alarm = true ∧ l.live.queue.length ≤ set.threshold / 2) }
        mark := l.mark ||
          decide (set.mode = .auto ∧ l.live.alarm = true ∧ l.live.queue.length ≤ set.threshold / 2) } := by
  unfold Lane.testClear Live.depth
  split
  · next clears => simp [clears]
  · next keeps => simp [keeps]

/-- Settles O34: the dequeue takes the head entries, and the alarm test and the repair step follow. -/
theorem fill_takesHeadEntries : Obligations.Fill_TakesHeadEntries := by
  intro s i awake l
  have run : exec (.transmitterFill i) s = .next (s.setLane i (l.fill s.store s.settings)) :=
    congrArg Host.Outcome.next (s.unlessReset_run _ awake)
  rw [run]
  refine ⟨fun idle => ?_, fun live idle waiting => ?_⟩
  · have not : ¬ l.mayFill = true := by
      rw [Lane.mayFill_iff]
      rintro ⟨live, free, waiting⟩
      rcases idle with h | h | h
      · exact h live
      · exact h free
      · exact waiting h
    rw [Lane.fill, if_neg not, State.setLane_lane]
  · obtain ⟨parts, short, inner, most, nonempty⟩ := takeEntries_spec 8 l.live.queue
    refine ⟨_, _, parts, nonempty (by decide) waiting, short, inner, most, ?_⟩
    intro clears filled
    have fill : l.fill s.store s.settings = filled.repairStep s.store s.settings := by
      rw [Lane.fill, if_pos (l.mayFill_iff.2 ⟨live, idle, waiting⟩), Lane.testClear_eq]
      rfl
    rw [fill]
    refine ⟨rfl, fun unrepaired => ?_⟩
    rw [Lane.repairStep_nil _ _ (l := filled) unrepaired]
    rfl

/-! ### The end of a grant (06, R124 to R138) -/

/-- When a sweep goes on (06, R129). -/
theorem Grant.maySweep_iff (g : Grant) (store : Store) (job : Job) :
    g.maySweep store job = true ↔
      job.state = .sweep ∧ g.closed = false ∧ g.frames.length < 8 ∧ g.examined < 256 ∧ job.sweepCursor < store.size := by
  simp only [Grant.maySweep, Bool.and_eq_true, decide_eq_true_eq, Bool.not_eq_true', and_assoc]
  exact Iff.rfl

/-- When a drain has no further row to take (06, R127 and R137). -/
theorem Grant.mayDrain_isNone_iff (g : Grant) (job : Job) :
    (g.mayDrain job).isNone = true ↔
      ¬ ((job.state = .drain ∨ job.state = .freeze) ∧ g.closed = false ∧ g.frames.length < 8 ∧
        ∃ row ∈ job.dirty, job.drainCursor ≤ row) := by
  have left : job.nextDirty = none ↔ ¬ ∃ row ∈ job.dirty, job.drainCursor ≤ row := by
    rw [Job.nextDirty_eq_none]
    simp
  rw [Option.isNone_iff_eq_none]
  unfold Grant.mayDrain
  split
  · next may =>
    rw [left]
    exact not_congr ⟨fun row => ⟨may.1, may.2.1, may.2.2, row⟩, fun on => on.2.2.2⟩
  · next done =>
    exact iff_of_true rfl fun on => done ⟨on.1, on.2.1, on.2.2.1⟩

/-- A grant that has not ended may take a further row: under the sweep cursor or of the dirty set (06, R127, R129 and R137). -/
theorem Grant.ended_iff (g : Grant) (store : Store) (job : Job) :
    g.ended store job = true ↔
      ¬ (g.closed = false ∧ g.frames.length < 8 ∧
        ((job.state = .sweep ∧ g.examined < 256 ∧ job.sweepCursor < store.size) ∨
          ((job.state = .drain ∨ job.state = .freeze) ∧ ∃ row ∈ job.dirty, job.drainCursor ≤ row))) := by
  unfold Grant.ended
  split
  case h_3 sweep =>
    rw [Bool.not_eq_true', ← Bool.not_eq_true, Grant.maySweep_iff]
    simp [sweep]
  case h_4 drain =>
    rw [Grant.mayDrain_isNone_iff]
    simp [drain]
  case h_5 freeze =>
    rw [Grant.mayDrain_isNone_iff]
    simp [freeze]
  all_goals next other => simp [other]

/-- Settles O41: a grant ends exactly when it may take no further row, with its frames handed over or without any. -/
theorem grantComplete_handsOver : Obligations.GrantComplete_HandsOver := by
  intro s g job awake hg hj goesOn l
  have found : s.grantJob = some (g, job) := by simp [State.grantJob, hg, hj]
  have run : exec .grantComplete s = .next s.completeGrant := congrArg Host.Outcome.next (s.unlessReset_run _ awake)
  rw [run, State.completeGrant, found]
  have ended := g.ended_iff s.store job
  refine ⟨fun on => ?_, fun off frames => ?_, fun off frames => ?_⟩ <;> refine congrArg Host.Outcome.next ?_
  · exact if_neg fun e => ended.1 e on
  · refine (if_pos (ended.2 off)).trans ?_
    simp only [if_neg frames]
    rfl
  · refine (if_pos (ended.2 off)).trans ?_
    simp only [if_pos frames]

end Sys2Proof.Machine
end

section
/-! SUPPORT. The ranges of the live figures, command by command (05, R97, R101, R107, R109, R110 and R115): each event of a lane keeps
its own figures within them, and only a LIVE lane's queue, timer, debt and repair list grow. -/

namespace Sys2Proof.Machine

/-! ### Lanes that leave their live state alone -/

section
variable {k l : Lane}

/-- A lane's figures are those of its live state; a lane that was LIVE has to be so still. -/
theorem Lane.LiveFits.of_live (h : k.LiveFits) (live : l.live = k.live) (state : k.state = .live → l.state = .live) :
    l.LiveFits := by
  obtain ⟨depth, watermark, debt, mismatches, once, offset, empty, stopped⟩ := h
  rw [← live] at depth watermark debt mismatches once offset empty stopped
  exact ⟨depth, watermark, debt, mismatches, once, offset, empty, fun other => stopped fun e => other (state e)⟩

/-- The figures of a LIVE lane, of which nothing is stopped. -/
theorem Lane.LiveFits.of_figures (live : l.state = .live) (depth : l.live.queue.length ≤ 4096)
    (watermark : l.live.queue.length ≤ l.live.watermark ∧ l.live.watermark ≤ 4096) (debt : l.live.debt ≤ 8)
    (mismatches : l.live.mismatches ≤ 65535) (once : l.live.repairs.Nodup) (offset : l.live.repairOffset < 4096)
    (empty : l.live.repairs = [] → l.live.repairOffset = 0) : l.LiveFits :=
  ⟨depth, watermark, debt, mismatches, once, offset, empty, fun other => absurd live other⟩

/-- A lane's view of its inputs is no part of its live state. -/
theorem Lane.LiveFits.view (h : l.LiveFits) (present lever : Bool) : ({ l with present, lever } : Lane).LiveFits :=
  h.of_live rfl id

/-- A lane's transmitter is no part of its live state. -/
theorem Lane.LiveFits.link (h : l.LiveFits) (tx : Transmitter) : ({ l with tx } : Lane).LiveFits := h.of_live rfl id

/-! ### Lanes that leave their state -/

/-- A lane that leaves LIVE keeps its watermark and its mismatch count alone (05, R115). -/
theorem Lane.LiveFits.moved (h : l.LiveFits) (state : LaneState) (cause : Option LaneCause) :
    (l.moved state cause).LiveFits := by
  by_cases live : l.state = .live
  · have ended : (l.moved state cause).live = l.live.ended := if_pos live
    obtain ⟨depth, ⟨_, bound⟩, _, mismatches, _⟩ := h
    constructor <;> simp [ended, Live.ended, bound, mismatches]
  · exact h.of_live (if_neg live) fun e => absurd e live

theorem Lane.LiveFits.vacate (h : l.LiveFits) (cause : Option LaneCause) : (l.vacate cause).LiveFits := by
  rw [Lane.vacate_eq]
  exact (h.moved .empty cause).of_live rfl id

theorem Lane.LiveFits.identify (h : l.LiveFits) : l.identify.LiveFits := by
  rw [Lane.identify_eq]
  exact (h.moved .identifying none).of_live rfl id

theorem Lane.LiveFits.extract (h : l.LiveFits) : l.extract.LiveFits := by
  rw [Lane.extract_eq]
  exact h.moved ..

theorem Lane.LiveFits.fault (h : l.LiveFits) (cause : LaneCause) : (l.fault cause).LiveFits := by
  rw [Lane.fault_eq]
  exact h.moved ..

theorem Lane.LiveFits.ready (h : l.LiveFits) : (l.abandon.goto .ready).LiveFits := by
  rw [Lane.abandon_goto_keep]
  exact h.moved ..

/-- The live state at entry to LIVE (05, R114). -/
theorem Lane.enterLive_liveFits (l : Lane) (interval : Nat) : (l.enterLive interval).LiveFits := by
  constructor <;> simp [Lane.enterLive, Lane.goto, Live.start]

theorem Lane.LiveFits.jobEnded (h : l.LiveFits) (outcome : JobState) (interval : Nat) :
    (l.jobEnded outcome interval).LiveFits := by
  unfold Lane.jobEnded
  split
  · split
    · exact l.enterLive_liveFits interval
    · exact h.ready
  · exact h

/-! ### Enqueues, repairs and audits -/

/-- One enqueue on a LIVE lane whose queue is not full (05, R97 and R101). -/
theorem Lane.LiveFits.enqueue (h : l.LiveFits) (live : l.state = .live) (room : l.live.queue.length < 4096) (set : Settings)
    (e : ApplyEntry) : (l.enqueue set e).LiveFits := by
  obtain ⟨_, ⟨_, bound⟩, debt, mismatches, once, offset, empty, _⟩ := h
  rw [Lane.enqueue_eq]
  refine .of_figures live ?_ ⟨?_, ?_⟩ debt mismatches once offset empty
  · simpa [Lane.enqueued] using room
  · simp [Lane.enqueued]
  · exact max_le bound room

/-- An admitted change finds room on every lane that it feeds (02, R28 and R33). -/
theorem Lane.LiveFits.feed (h : l.LiveFits) {kind : Kind}
    (room : l.state = .live → l.accepts kind = true → l.live.queue.length < 4096) (set : Settings)
    (entry : Profile → Option ApplyEntry) : (l.feed set kind entry).LiveFits := by
  unfold Lane.feed
  split
  · next fed =>
    split
    · exact h.enqueue fed.1 (room fed.1 fed.2) set _
    · exact h
  · exact h

theorem Lane.advanceRepair_front (l : Lane) : Lane.SameFront l l.advanceRepair := by
  unfold Lane.advanceRepair
  split <;> exact ⟨rfl, rfl, rfl, rfl, rfl⟩

/-- The repair cursor moves within its segment, or to the start of the next one (05, R110 and R113). -/
theorem Lane.LiveFits.advanceRepair (h : l.LiveFits) (live : l.state = .live) (listed : l.live.repairs ≠ []) :
    l.advanceRepair.LiveFits := by
  obtain ⟨depth, watermark, debt, mismatches, once, _⟩ := h
  unfold Lane.advanceRepair
  split
  · next inside => exact .of_figures live depth watermark debt mismatches once inside fun none => absurd none listed
  · exact .of_figures live depth watermark debt mismatches (once.sublist (List.tail_sublist _)) (Nat.zero_lt_succ _) fun _ => rfl

/-- Repair entries are placed below depth 3,072 (05, R111). -/
theorem Lane.LiveFits.repair (store : Store) (set : Settings) (steps : Nat) (h : l.LiveFits) (live : l.state = .live) :
    (Lane.repair store set steps l).LiveFits := by
  induction steps generalizing l with
  | zero => exact h
  | succ steps ih =>
    unfold Lane.repair
    split
    · exact h
    · next segment others repairs =>
      split
      · next below =>
        have room : l.live.queue.length < 4096 := Nat.lt_trans below (by decide)
        have still : ∀ e, (l.enqueue set e).state = .live := fun e => (l.enqueue_front set e).state.trans live
        have listed : ∀ e, (l.enqueue set e).live.repairs ≠ [] := fun e => by
          rw [Lane.enqueue_eq]
          simp [Lane.enqueued, repairs]
        exact ih ((h.enqueue live room set _).advanceRepair (still _) (listed _))
          ((Lane.advanceRepair_front _).state.trans (still _))
      · exact h

/-- A mismatch is counted up to 65,535, and its segment joins the repair list once (05, R109 and R110). -/
theorem Lane.LiveFits.mismatch (h : l.LiveFits) (live : l.state = .live) (store : Store) (set : Settings) (segment : Nat) :
    (l.mismatch store set segment).LiveFits := by
  obtain ⟨depth, watermark, debt, _, once, offset, empty, _⟩ := h
  have saturated : min 65535 (l.live.mismatches + 1) ≤ 65535 := Nat.min_le_left ..
  by_cases listed : segment ∈ l.live.repairs
  · rw [Lane.mismatch_listed store set listed]
    exact .of_figures live depth watermark debt saturated once offset empty
  · rw [Lane.mismatch_unlisted store set listed]
    refine Lane.LiveFits.repair store set _ (.of_figures live depth watermark debt saturated ?_ offset fun none => ?_) live
    · exact List.concat_eq_append ▸ once.concat listed
    · simp at none

/-- The audit of a retired burst (04, R91; 05, R109). -/
theorem Lane.LiveFits.retiredLive (h : l.LiveFits) (live : l.state = .live) (store : Store) (set : Settings) (b : Burst)
    (digest : Option Word32) : (l.retiredLive store set b digest).LiveFits := by
  unfold Lane.retiredLive Lane.compareAudit
  split
  · split
    · exact h
    · exact h.mismatch live store set _
  · exact h

theorem Lane.LiveFits.placeAudit (h : l.LiveFits) (live : l.state = .live) (room : l.live.queue.length < 4096) (store : Store)
    (set : Settings) : (l.placeAudit store set).LiveFits := by
  obtain ⟨depth, watermark, debt, mismatches, once, offset, empty, _⟩ :=
    h.enqueue live room set (.audit l.live.nextAudit (store.digest l.profile l.live.nextAudit))
  have still : (l.placeAudit store set).state = .live := (l.placeAudit_front store set).state.trans live
  exact .of_figures still depth watermark debt mismatches once offset empty

/-- A payment of audit debt (05, R107). -/
theorem Lane.LiveFits.paid (h : l.LiveFits) (live : l.state = .live) :
    ({ l with live := { l.live with debt := l.live.debt - 1 } } : Lane).LiveFits :=
  .of_figures live h.depth h.watermark ((Nat.sub_le ..).trans h.debt) h.mismatches h.repairs_once h.offset h.offset_empty

/-- An audit expiry owes up to eight audits and places within the queue's capacity (05, R107). -/
theorem Lane.LiveFits.auditExpiry (h : l.LiveFits) (live : l.state = .live) (store : Store) (set : Settings) :
    (l.auditExpiry store set).LiveFits := by
  have still : (l.placeAudit store set).state = .live := (l.placeAudit_front store set).state.trans live
  unfold Lane.auditExpiry
  split
  · next defers =>
    exact .of_figures live h.depth h.watermark defers.2 h.mismatches h.repairs_once h.offset h.offset_empty
  · simp only []
    split
    · next room =>
      have placed := h.placeAudit live room store set
      split
      · next pays =>
        exact (placed.placeAudit still pays.2.2 store set).paid ((Lane.placeAudit_front ..).state.trans still)
      · exact placed
    · exact h

/-- A LIVE lane's audit timer is no figure. -/
theorem Lane.LiveFits.timed (h : l.LiveFits) (live : l.state = .live) (auditTimer : Timer) :
    ({ l with live := { l.live with auditTimer } } : Lane).LiveFits :=
  .of_figures live h.depth h.watermark h.debt h.mismatches h.repairs_once h.offset h.offset_empty

theorem Lane.LiveFits.auditTick (h : l.LiveFits) (store : Store) (set : Settings) : (l.auditTick store set).LiveFits := by
  unfold Lane.auditTick
  split
  · next due => exact (h.auditExpiry due.1 store set).timed ((l.auditExpiry_front store set).state.trans due.1) _
  · exact h

theorem Lane.LiveFits.restartAudit (h : l.LiveFits) (interval : Nat) : (l.restartAudit interval).LiveFits := by
  unfold Lane.restartAudit
  split
  · next live => exact h.timed live _
  · exact h

/-- A fill shortens the queue before its repair step (04, R90). -/
theorem Lane.LiveFits.fill (h : l.LiveFits) (store : Store) (set : Settings) : (l.fill store set).LiveFits := by
  unfold Lane.fill
  split
  · next may =>
    have live := (l.mayFill_iff.1 may).1
    obtain ⟨parts, _⟩ := takeEntries_spec 8 l.live.queue
    have shorter : (takeEntries 8 l.live.queue).2.length ≤ l.live.queue.length := by
      conv_rhs => rw [parts, List.length_append]
      exact Nat.le_add_left ..
    rw [Lane.testClear_eq]
    exact Lane.LiveFits.repair store set _
      (.of_figures live (shorter.trans h.depth) ⟨shorter.trans h.watermark.1, h.watermark.2⟩ h.debt h.mismatches
        h.repairs_once h.offset h.offset_empty) live
  · exact h

/-! ### Lane events -/

theorem Lane.LiveFits.failAttempt (h : l.LiveFits) : l.failAttempt.LiveFits := by
  unfold Lane.failAttempt
  split
  · rw [Lane.beginAlign_attempt]
    exact h.of_live rfl id
  · exact h.fault _

theorem Lane.LiveFits.sendTest (h : l.LiveFits) : l.sendTest.LiveFits := by
  unfold Lane.sendTest
  split
  · exact h.of_live rfl id
  · exact h

theorem Lane.LiveFits.sent (h : l.LiveFits) : l.sent.LiveFits := by
  unfold Lane.sent
  split
  · split
    · rcases step : l.step with _ | (_ | _)
      · exact Lane.trainingSent_none step ▸ h.link _
      · exact Lane.trainingSent_align step ▸ h.link _
      · rcases Nat.lt_or_ge l.testsTaken 64 with more | done
        · exact Lane.trainingSent_test step more ▸ h.of_live rfl id
        · exact Lane.trainingSent_last step done ▸ h.of_live rfl id
    · exact h.link _
  · exact h
  · exact h

/-- An identification ends on a lane that is not LIVE (03, R64). -/
theorem Lane.LiveFits.identified (h : l.LiveFits) (other : l.state ≠ .live) (descriptor : Vector Byte 16) :
    (l.identified descriptor).LiveFits := by
  unfold Lane.identified
  split
  · rw [Lane.train, Lane.beginAlign_eq]
    exact h.of_live rfl fun live => absurd live other
  · exact h.fault _

/-- A microsecond of time runs on timers alone, and a stopped one stays so. -/
theorem Lane.LiveFits.tick (h : l.LiveFits) : l.tick.LiveFits := by
  refine ⟨h.depth, h.watermark, h.debt, h.mismatches, h.repairs_once, h.offset, h.offset_empty, fun other => ?_⟩
  obtain ⟨queue, alarm, timer, debt, repairs⟩ := h.stopped other
  exact ⟨queue, alarm, congrArg Timer.tick timer, debt, repairs⟩

/-- Each event of a lane alone keeps its figures within their ranges, if only a LIVE lane has a burst of its queue outstanding. -/
theorem Lane.Turns.liveFits {store : Store} {set : Settings} (event : Lane.Turns store set k l)
    (queued : ∀ b ∈ k.tx.outstanding, b.client = .applyQueue → k.state = .live) (h : k.LiveFits) : l.LiveFits := by
  cases event with
  | unmark => exact h.of_live rfl id
  | sent => exact h.sent
  | alignExpired =>
    unfold Lane.alignExpired
    split
    · exact h.failAttempt
    · exact h
  | replyExpired =>
    unfold Lane.replyExpired
    split
    · exact h.failAttempt
    · exact h
  | locked =>
    unfold Lane.takeLocked
    split
    · exact Lane.LiveFits.sendTest (h.of_live rfl id)
    · exact h
  | pattern failures =>
    unfold Lane.takePattern
    split
    · split
      · exact h.ready
      · exact h.failAttempt
    · exact h
  | fill => exact h.fill store set
  | audit => exact h.auditTick store set
  | rise => exact h.view true k.lever
  | close => exact h.view k.present true
  | fallEmpty => exact h.view false k.lever
  | fallExtracting => exact (h.view false k.lever).vacate _
  | fall => exact (h.view false k.lever).vacate _
  | openOut => exact h.view k.present false
  | extract => exact (h.view k.present false).extract
  | resetOut => exact h.vacate none
  | release => exact h.ready.of_live rfl id
  | clearAlarm live =>
    exact .of_figures live h.depth ⟨Nat.le_refl _, h.depth⟩ h.debt h.mismatches h.repairs_once h.offset h.offset_empty
  | retireTraining => exact h.link _
  | retireLive b digest awaited client =>
    exact (h.link k.tx.release).retiredLive (queued b (Transmitter.awaited_outstanding awaited) client) store set b digest
  | resend => exact h.link _
  | linkFault => exact h.fault _
  | dropBurst => exact h.link _

end

/-! ### Every move of the part -/

/-- The figures of every lane are within their ranges, and what can move them meets the lane in its state: a burst of an apply
queue is a LIVE lane's, and an identification attempt is on no LIVE lane (03, R60; 04, R94). -/
structure State.FiguresFit (s : State) : Prop where
  lanes : ∀ i, (s.lane i).LiveFits
  queued : ∀ i, ∀ b ∈ (s.lane i).tx.outstanding, b.client = .applyQueue → (s.lane i).state = .live
  attempts : ∀ i, s.master.attempting = some i → (s.lane i).state ≠ .live

theorem State.BlocksAgree.figuresFit {s : State} (agree : s.BlocksAgree) (lanes : ∀ i, (s.lane i).LiveFits) : s.FiguresFit where
  lanes := lanes
  queued i b out client := by
    have fits := agree.client i b out
    rwa [client] at fits
  attempts i attempt := by
    have waiting : i ∈ s.master.fifo := List.mem_of_mem_head? ((s.master.attempting_iff i).1 attempt).2
    rw [(agree.fifo_iff i).1 waiting]
    decide

/-- Fields of other blocks do not matter. -/
theorem State.FiguresFit.of_same {s t : State} (h : s.FiguresFit) (same : State.SamePart s t) : t.FiguresFit where
  lanes i := same.lane_eq i ▸ h.lanes i
  queued i := same.lane_eq i ▸ h.queued i
  attempts i := by rw [same.master, same.lane_eq]; exact h.attempts i

/-- One lane changes. -/
theorem State.liveFits_setLane {s : State} (h : ∀ i, (s.lane i).LiveFits) {i : Slot} {l : Lane} (fits : l.LiveFits) (k : Slot) :
    ((s.setLane i l).lane k).LiveFits := by
  rw [State.lane_setLane]
  split
  · exact fits
  · exact h k

/-- An event of jobs ends jobs on lanes at most. -/
theorem State.JobEvent.liveFits {s t : State} (event : State.JobEvent s t) (h : ∀ i, (s.lane i).LiveFits) (i : Slot) :
    (t.lane i).LiveFits := by
  rcases event.lanes i with e | ⟨outcome, e⟩ <;> rw [e]
  · exact h i
  · exact (h i).jobEnded outcome _

/-- The job on a lane fails (06, R140 and R141). -/
theorem State.liveFits_failJobOn {s : State} (h : ∀ i, (s.lane i).LiveFits) (k : Slot) (cause : JobCause) (i : Slot) :
    ((s.failJobOn k cause).lane i).LiveFits := by
  unfold State.failJobOn
  split
  · rw [State.arbitrate_lane]
    exact (State.jobEvent_endJob ..).liveFits h i
  · exact h i

/-- An admitted change has passed check 4, so no lane that it feeds is full (02, R28 and R32). -/
theorem State.liveFits_applyChange {s : State} (h : ∀ i, (s.lane i).LiveFits) {kind : Kind} (free : ¬ s.QueueFullOn kind)
    (store : Store) (row : Nat) (entry : Profile → Option ApplyEntry) (i : Slot) :
    ((s.applyChange store kind row entry).lane i).LiveFits := by
  unfold State.applyChange
  rw [State.arbitrate_lane, State.mapJobs_lane, State.lane_mapLanes]
  exact (h i).feed (fun live accepts => Nat.lt_of_not_le fun full => free ⟨i, live, accepts, full⟩) s.settings entry

theorem State.liveFits_completeGrant {s : State} (h : ∀ i, (s.lane i).LiveFits) (i : Slot) :
    (s.completeGrant.lane i).LiveFits := by
  rcases s.completeGrant_cases with e | ⟨g, job, _, _, ⟨_, e⟩ | ⟨_, e⟩⟩ <;> rw [e]
  · exact h i
  · rw [State.arbitrate_lane]
    exact (State.jobEvent_endOfWork { s with grant := none } g.job).liveFits h i
  · rw [State.arbitrate_lane]
    exact State.liveFits_setLane (s := { s with grant := none }) h
      ((h job.slot).link ((s.lane job.slot).tx.take g.frames (.job g.job) none)) i

/-- The reads of rows and the samples are the copy engine's own. -/
theorem State.examineRow_lane (s : State) (i : Slot) : s.examineRow.lane i = s.lane i := by
  unfold State.examineRow
  (repeat' split) <;> rfl

theorem State.takeRow_lane (s : State) (i : Slot) : s.takeRow.lane i = s.lane i := by
  unfold State.takeRow
  (repeat' split) <;> rfl

theorem State.sampleExpired_lane (s : State) (j : JobNo) (i : Slot) : (s.sampleExpired j).lane i = s.lane i := by
  unfold State.sampleExpired
  (repeat' split) <;> rfl

/-- Each move keeps every lane's figures within their ranges. -/
theorem State.Moves.liveFits {c : Instr} {s t : State} (m : State.Moves c s t) (h : s.FiguresFit) (i : Slot) :
    (t.lane i).LiveFits := by
  have lanes := h.lanes
  cases m with
  | same => exact lanes i
  | reset store settings =>
    have cleared : (s.resetBlocks store).lane i = Lane.reset := by simp [State.lane, State.resetBlocks]
    exact cleared ▸ Lane.reset_liveFits
  | begins => exact lanes i
  | completes => exact lanes i
  | inserts m r row verdict =>
    obtain ⟨_, _, _, free, _⟩ := State.insertVerdict_ok verdict
    exact State.liveFits_applyChange lanes free _ row _ i
  | updates m row old r verdict =>
    obtain ⟨_, _, _, free, _⟩ := State.updateVerdict_ok verdict
    exact State.liveFits_applyChange lanes free _ row _ i
  | retires m k row old verdict =>
    obtain ⟨_, _, _, free, _⟩ := State.retireVerdict_ok verdict
    exact State.liveFits_applyChange lanes free _ row _ i
  | setting => exact lanes i
  | setAudit interval =>
    rw [State.lane_mapLanes]
    exact (lanes i).restartAudit interval
  | turn k l event => exact State.liveFits_setLane lanes (event.liveFits (h.queued k) (lanes k)) i
  | identifies k present =>
    simp only [State.identify, State.lane_setLane_self, State.setLane_setLane]
    exact State.liveFits_setLane lanes ((lanes k).view present true).identify i
  | unidentifies k l _ departure =>
    refine State.liveFits_setLane lanes (i := k) ?_ i
    rcases departure with rfl | ⟨rfl, _⟩
    · exact ((lanes k).view false _).vacate _
    · exact ((lanes k).view _ false).extract
  | identified k l attempt ending =>
    refine State.liveFits_setLane lanes (i := k) ?_ i
    rcases ending with rfl | ⟨d, rfl⟩
    · exact (lanes k).fault _
    · exact (lanes k).identified (h.attempts k attempt) d
  | masters => exact lanes i
  | loses k l cause _ departure =>
    refine State.liveFits_failJobOn (State.liveFits_setLane lanes ?_) k cause i
    rcases departure with rfl | ⟨rfl, _⟩ | rfl
    · exact ((lanes k).view false _).vacate _
    · exact ((lanes k).view _ false).extract
    · exact (lanes k).fault _
  | starts m k facts policy j verdict =>
    obtain ⟨_, ready, _⟩ := State.copyVerdict_ok verdict
    have loaded : ({ (s.lane k).goto .loading with cause := none } : Lane).LiveFits :=
      (lanes k).of_live rfl fun live => by rw [ready] at live; cases live
    unfold State.startJob
    rw [State.arbitrate_lane]
    exact State.liveFits_setLane (s := s.setJob j (some (Job.accepted k facts.profile policy))) lanes loaded i
  | aborts k j =>
    rw [State.arbitrate_lane]
    exact (s.jobEvent_endJob j _).liveFits lanes i
  | retireJob k b j digest =>
    rw [State.arbitrate_lane]
    exact (State.jobEvent_reportRetired _ j b.frames digest).liveFits
      (State.liveFits_setLane lanes ((lanes k).link (s.lane k).tx.release)) i
  | examines => exact s.examineRow_lane i ▸ lanes i
  | takes => exact s.takeRow_lane i ▸ lanes i
  | grants => exact State.liveFits_completeGrant lanes i
  | freezes j =>
    rcases s.freezeExpired_cases j with e | ⟨u, event, _, e⟩ <;> rw [e]
    · exact lanes i
    · rw [State.arbitrate_lane]
      exact event.liveFits lanes i
  | samples j => exact s.sampleExpired_lane j i ▸ lanes i
  | noticed => exact lanes i

/-- A microsecond of time keeps every lane's figures within their ranges. -/
theorem State.liveFits_tick {s : State} (h : ∀ i, (s.lane i).LiveFits) (i : Slot) : (s.tick.lane i).LiveFits := by
  unfold State.tick
  split
  · exact h i
  · rw [State.mapJobs_lane, State.lane_mapLanes]
    exact (h i).tick

/-- Settles O57: each lane event, and each job's end on a lane, keeps the lane's figures within their ranges, as does time. -/
theorem step_keepsLiveFigures : Obligations.Step_KeepsLiveFigures := by
  intro s t agree lanes run i
  unfold step at run
  split at run
  · injection run with run
    exact run ▸ State.liveFits_tick lanes i
  · next c rest _ =>
    obtain ⟨a, b, before, move, after⟩ := exec_steps c run
    have fit : ({ s with pending := rest } : State).FiguresFit :=
      (agree.figuresFit lanes).of_same ⟨rfl, rfl, rfl, rfl, rfl, rfl⟩
    exact after.lane_eq i ▸ move.liveFits (fit.of_same before) i

end Sys2Proof.Machine
end

section
/-! SUPPORT. Repairs and audits of LIVE lanes (05, R106, R107 and R111 to R113): what a repair step and an audit timer expiry make of a
lane, in closed form. -/

namespace Sys2Proof.Machine

/-! ### Repair entries one after another (05, R111 to R113) -/

/-- The lane after enqueues of `entries`, its repair list and cursor moved; `emptied` says if the list has become empty. -/
def Lane.repaired (threshold : Nat) (l : Lane) (entries : List ApplyEntry) (repairs : List Nat) (offset : Nat) (emptied : Bool) :
    Lane :=
  let depth := l.live.queue.length + entries.length
  let raises := decide (0 < entries.length ∧ threshold < depth)
  { l with
    live :=
      { l.live with
        queue := l.live.queue ++ entries
        watermark := if entries.length = 0 then l.live.watermark else max l.live.watermark depth
        alarm := l.live.alarm || raises
        repairs, repairOffset := offset }
    mark := l.mark || (!l.live.alarm && raises) || emptied }

/-- No entry, and a cursor that stays. -/
theorem Lane.repaired_nil (threshold : Nat) (l : Lane) :
    l.repaired threshold [] l.live.repairs l.live.repairOffset false = l := by
  simp [Lane.repaired]

@[simp] theorem Lane.repaired_profile (threshold : Nat) (l : Lane) (es : List ApplyEntry) (r : List Nat) (o : Nat) (x : Bool) :
    (l.repaired threshold es r o x).profile = l.profile := rfl

@[simp] theorem Lane.repaired_offset (threshold : Nat) (l : Lane) (es : List ApplyEntry) (r : List Nat) (o : Nat) (x : Bool) :
    (l.repaired threshold es r o x).live.repairOffset = o := rfl

@[simp] theorem Lane.repaired_length (threshold : Nat) (l : Lane) (es : List ApplyEntry) (r : List Nat) (o : Nat) (x : Bool) :
    (l.repaired threshold es r o x).live.queue.length = l.live.queue.length + es.length := List.length_append

/-- Entries after entries (05, R101 and R103). -/
theorem Lane.repaired_repaired (threshold : Nat) (l : Lane) (es fs : List ApplyEntry) (r r' : List Nat) (o o' : Nat)
    (x y : Bool) :
    (l.repaired threshold es r o x).repaired threshold fs r' o' y = l.repaired threshold (es ++ fs) r' o' (x || y) := by
  have raises : ∀ d m n : Nat, decide (0 < m + n ∧ threshold < d + (m + n)) =
      (decide (0 < m ∧ threshold < d + m) || decide (0 < n ∧ threshold < d + m + n)) := by
    intro d m n
    rw [← Bool.decide_or, decide_eq_decide]
    omega
  have watermark : ∀ w d m n : Nat, (if m + n = 0 then w else max w (d + (m + n))) =
      if n = 0 then if m = 0 then w else max w (d + m) else max (if m = 0 then w else max w (d + m)) (d + m + n) := by
    intro w d m n
    (repeat' split) <;> omega
  have marks : ∀ m a p q : Bool, (m || (!a && p) || x || (!(a || p) && q) || y) = (m || (!a && (p || q)) || x || y) := by
    cases x <;> cases y <;> decide
  simp only [Lane.repaired, List.length_append, raises, watermark, marks, List.append_assoc, ← Bool.or_assoc]

/-- One entry of the cursor's row, and the cursor moved on (05, R112 and R113). -/
theorem Lane.advanceRepair_enqueue (set : Settings) {l : Lane} {segment : Nat} {others : List Nat}
    (listed : l.live.repairs = segment :: others) (e : ApplyEntry) :
    (l.enqueue set e).advanceRepair =
      if l.live.repairOffset + 1 < 4096 then
        l.repaired set.threshold [e] (segment :: others) (l.live.repairOffset + 1) false
      else l.repaired set.threshold [e] others 0 others.isEmpty := by
  rw [Lane.enqueue_eq, Lane.advanceRepair]
  simp only [Lane.enqueued, Lane.repaired, listed, Config.segmentRows]
  split <;> simp

/-- The row of the `k`th repair entry from an offset of a segment on: past the segment's last row those of the next one. -/
def repairRow (segment offset : Nat) (others : List Nat) (k : Nat) : Nat :=
  if k < 4096 - offset then 4096 * segment + offset + k else 4096 * others.headD 0 + (k - (4096 - offset))

/-- How many entries are placed where `room` could be and `left` rows of the head segment are left. -/
def repairCount (others : List Nat) (left room : Nat) : Nat := if others = [] then min left room else room

theorem repairRow_zero {offset : Nat} (inside : offset < 4096) (segment : Nat) (others : List Nat) :
    repairRow segment offset others 0 = 4096 * segment + offset := if_pos (by omega)

/-- Within a segment the rows go on from the next offset. -/
theorem repairRow_succ {offset : Nat} (inner : offset + 1 < 4096) (segment : Nat) (others : List Nat) (k : Nat) :
    repairRow segment offset others (k + 1) = repairRow segment (offset + 1) others k := by
  unfold repairRow
  split <;> split <;> omega

/-- Past a segment's last row they are those of the next segment. -/
theorem repairRow_next {k : Nat} (few : k < 4096) (segment next : Nat) (rest : List Nat) :
    repairRow segment 4095 (next :: rest) (k + 1) = repairRow next 0 rest k := by
  unfold repairRow
  rw [if_neg (by omega), if_pos (by omega), List.headD_cons]
  omega

/-- The entries of the first row and of those behind it. -/
theorem cons_map_range {α : Type} {f g : Nat → α} {n : Nat} (next : ∀ k < n, g k = f (k + 1)) :
    [f 0] ++ (List.range n).map g = (List.range (n + 1)).map f := by
  rw [List.range_succ_eq_map, List.map_cons, List.map_map, List.singleton_append]
  exact congrArg _ (List.map_congr_left fun k hk => next k (List.mem_range.1 hk))

/-- One repair entry, and the entries of the steps left (05, R111). -/
theorem Lane.repair_succ (store : Store) (set : Settings) (steps : Nat) {l : Lane} {segment : Nat} {others : List Nat}
    (listed : l.live.repairs = segment :: others) (below : l.live.queue.length < 3072) :
    Lane.repair store set (steps + 1) l =
      Lane.repair store set steps
        (l.enqueue set (repairEntry store l.profile (4096 * segment + l.live.repairOffset))).advanceRepair := by
  rw [Lane.repair, listed]
  exact if_pos below

/-- At depth 3,072 no entry is placed (05, R111). -/
theorem Lane.repair_full (store : Store) (set : Settings) (steps : Nat) {l : Lane} (full : 3072 ≤ l.live.queue.length) :
    Lane.repair store set steps l = l := by
  cases steps with
  | zero => rfl
  | succ steps =>
    rw [Lane.repair]
    split
    · rfl
    · exact if_neg (Nat.not_lt.2 full)

/-- With no segment listed no entry is placed (05, R111). -/
theorem Lane.repair_unlisted (store : Store) (set : Settings) (steps : Nat) {l : Lane} (none : l.live.repairs = []) :
    Lane.repair store set steps l = l := by
  cases steps with
  | zero => rfl
  | succ steps => rw [Lane.repair, none]

/-- The lane after `n` repair entries from its cursor on, of the head segment and at most one more (05, R111 to R113). -/
def Lane.repairedRows (store : Store) (threshold segment : Nat) (others : List Nat) (n : Nat) (l : Lane) : Lane :=
  let offset := l.live.repairOffset
  let left := 4096 - offset
  l.repaired threshold ((List.range n).map fun k => repairEntry store l.profile (repairRow segment offset others k))
    (if n < left then segment :: others else others) (if n < left then offset + n else n - left)
    (decide (others = [] ∧ n = left))

section
variable (store : Store) (threshold : Nat) {l : Lane} {segment : Nat} {others : List Nat}

theorem Lane.repairedRows_zero (listed : l.live.repairs = segment :: others) (inside : l.live.repairOffset < 4096) :
    l.repairedRows store threshold segment others 0 = l := by
  have stays := l.repaired_nil threshold
  rw [listed] at stays
  have left : 0 < 4096 - l.live.repairOffset := Nat.sub_pos_of_lt inside
  simpa [Lane.repairedRows, left, left.ne] using stays

/-- The first entry is of the cursor's row, and rows of the segment are left. -/
theorem Lane.repairedRows_inner (inner : l.live.repairOffset + 1 < 4096) (n : Nat) :
    (l.repaired threshold [repairEntry store l.profile (4096 * segment + l.live.repairOffset)] (segment :: others)
      (l.live.repairOffset + 1) false).repairedRows store threshold segment others n =
      l.repairedRows store threshold segment others (n + 1) := by
  have entries := cons_map_range (n := n)
    (f := fun k => repairEntry store l.profile (repairRow segment l.live.repairOffset others k))
    (g := fun k => repairEntry store l.profile (repairRow segment (l.live.repairOffset + 1) others k))
    fun k _ => by rw [repairRow_succ inner]
  rw [repairRow_zero (Nat.lt_of_succ_lt inner)] at entries
  have left : n < 4096 - (l.live.repairOffset + 1) ↔ n + 1 < 4096 - l.live.repairOffset := by omega
  have repairs := if_congr left (Eq.refl (segment :: others)) (Eq.refl others)
  have offset := if_congr left (show l.live.repairOffset + 1 + n = l.live.repairOffset + (n + 1) by omega)
    (show n - (4096 - (l.live.repairOffset + 1)) = n + 1 - (4096 - l.live.repairOffset) by omega)
  have emptied : decide (others = [] ∧ n = 4096 - (l.live.repairOffset + 1)) =
      decide (others = [] ∧ n + 1 = 4096 - l.live.repairOffset) :=
    decide_eq_decide.2 (and_congr_right' (by omega))
  have parts := congr (congr (congr (congrArg (l.repaired threshold) entries) repairs) offset) emptied
  exact (Lane.repaired_repaired ..).trans parts

/-- The first entry is of the segment's last row, and another segment stands behind it. -/
theorem Lane.repairedRows_next (last : l.live.repairOffset = 4095) (next : Nat) (rest : List Nat) {n : Nat} (few : n < 4096) :
    (l.repaired threshold [repairEntry store l.profile (4096 * segment + l.live.repairOffset)] (next :: rest) 0
      false).repairedRows store threshold next rest n =
      l.repairedRows store threshold segment (next :: rest) (n + 1) := by
  have entries := cons_map_range (n := n)
    (f := fun k => repairEntry store l.profile (repairRow segment 4095 (next :: rest) k))
    (g := fun k => repairEntry store l.profile (repairRow next 0 rest k))
    fun k hk => by rw [repairRow_next (hk.trans few)]
  rw [repairRow_zero (by decide)] at entries
  simp only [Lane.repairedRows, Lane.repaired_repaired, Lane.repaired_profile, Lane.repaired_offset, last, ← entries]
  simp [few, few.ne]

/-- The only entry is of the last row of the last segment. -/
theorem Lane.repairedRows_last (last : l.live.repairOffset = 4095) :
    l.repaired threshold [repairEntry store l.profile (4096 * segment + l.live.repairOffset)] [] 0 true =
      l.repairedRows store threshold segment [] 1 := by
  simp [Lane.repairedRows, last, repairRow]

end

/-- Repair entries in closed form, of two segments at most (05, R111 to R113). -/
theorem Lane.repair_eq (store : Store) (set : Settings) (steps : Nat) {l : Lane} {segment : Nat} {others : List Nat}
    (listed : l.live.repairs = segment :: others) (inside : l.live.repairOffset < 4096) (few : steps ≤ 4096) :
    Lane.repair store set steps l =
      l.repairedRows store set.threshold segment others
        (repairCount others (4096 - l.live.repairOffset) (min steps (3072 - l.live.queue.length))) := by
  induction steps generalizing l segment others with
  | zero =>
    have none : repairCount others (4096 - l.live.repairOffset) (min 0 (3072 - l.live.queue.length)) = 0 := by
      simp [repairCount]
    rw [none, Lane.repairedRows_zero store set.threshold listed inside, Lane.repair]
  | succ steps ih =>
    rcases Nat.lt_or_ge l.live.queue.length 3072 with below | full
    · rw [Lane.repair_succ store set steps listed below, Lane.advanceRepair_enqueue set listed]
      by_cases inner : l.live.repairOffset + 1 < 4096
      · have count : repairCount others (4096 - l.live.repairOffset) (min (steps + 1) (3072 - l.live.queue.length)) =
            repairCount others (4096 - (l.live.repairOffset + 1)) (min steps (3072 - (l.live.queue.length + 1))) + 1 := by
          unfold repairCount
          split <;> omega
        rw [if_pos inner, count, ih rfl inner (by omega), ← Lane.repairedRows_inner store set.threshold inner,
          Lane.repaired_length, Lane.repaired_offset, List.length_singleton]
      · have last : l.live.repairOffset = 4095 := by omega
        rw [if_neg inner]
        rcases others with _ | ⟨next, rest⟩
        · have count : repairCount [] (4096 - l.live.repairOffset) (min (steps + 1) (3072 - l.live.queue.length)) = 1 := by
            simp only [repairCount, if_true]
            omega
          rw [count, ← Lane.repairedRows_last store set.threshold last]
          exact Lane.repair_unlisted store set steps rfl
        · have count : repairCount (next :: rest) (4096 - l.live.repairOffset)
              (min (steps + 1) (3072 - l.live.queue.length)) =
              repairCount rest 4096 (min steps (3072 - (l.live.queue.length + 1))) + 1 := by
            simp only [repairCount, reduceCtorEq, if_false]
            split <;> omega
          have fewer : repairCount rest 4096 (min steps (3072 - (l.live.queue.length + 1))) < 4096 := by
            unfold repairCount
            split <;> omega
          rw [count, ← Lane.repairedRows_next store set.threshold last next rest fewer]
          refine (ih (others := rest) rfl (by simp) (by omega)).trans ?_
          rw [Lane.repaired_length, Lane.repaired_offset, List.length_singleton]
          rfl
    · have none : repairCount others (4096 - l.live.repairOffset) (min (steps + 1) (3072 - l.live.queue.length)) = 0 := by
        simp [repairCount, Nat.sub_eq_zero_of_le full]
      rw [none, Lane.repairedRows_zero store set.threshold listed inside, Lane.repair_full store set _ full]

/-- The repair entry of a row, by what its profile holds of it (05, R112). -/
theorem repairEntry_eq (store : Store) (p : Profile) (row : Nat) :
    repairEntry store p row =
      if store.rowInProfile p row then .write row (((store.row row).map fun r => r.encode p).getD []) else .clear row := by
  unfold repairEntry Store.rowInProfile
  cases store.row row <;> rfl

/-- The cursor is absent exactly when nothing is listed (05, R110). -/
theorem Live.cursor_eq_none (v : Live) : v.cursor = none ↔ v.repairs = [] := by
  simp [Live.cursor]

/-- Settles O35: the step's entries in closed form, whose count no list of one segment takes past its last row. -/
theorem repairStep_placesRows : Obligations.RepairStep_PlacesRows := by
  intro store set l segment others listed inside room left n row after
  have run : after = l.repairedRows store set.threshold segment others n := Lane.repair_eq store set 8 listed inside (by decide)
  have alone : others = [] → n ≤ left := fun none =>
    (show n = min left room from if_pos none).trans_le (Nat.min_le_left ..)
  have repairs : after.live.repairs = if n < left then segment :: others else others := congrArg (fun t => t.live.repairs) run
  have offset : after.live.repairOffset = if n < left then l.live.repairOffset + n else n - left :=
    congrArg (fun t => t.live.repairOffset) run
  have alarm : after.live.alarm = (l.live.alarm || decide (0 < n ∧ set.threshold < l.live.queue.length + n)) := by
    refine (congrArg (fun t => t.live.alarm) run).trans ?_
    simp only [Lane.repairedRows, Lane.repaired, List.length_map, List.length_range]
  refine ⟨?_, fun inner => ⟨repairs.trans (if_pos inner), offset.trans (if_pos inner)⟩,
    fun past => ⟨repairs.trans (if_neg past.not_gt), offset.trans (if_neg past.not_gt)⟩, ?_, ?_, ?_, alarm, ?_⟩
  · have entries := List.map_congr_left (l := List.range n) fun k _ => repairEntry_eq store l.profile (row k)
    exact (congrArg (fun t => t.live.queue) run).trans (congrArg (l.live.queue ++ ·) entries)
  · rw [Live.cursor_eq_none, repairs]
    split
    · next inner => simp [inner.ne]
    · next past => exact ⟨fun none => ⟨none, (alone none).antisymm (Nat.le_of_not_lt past)⟩, And.left⟩
  · have mark : after.mark = (l.mark || (!l.live.alarm && decide (0 < n ∧ set.threshold < l.live.queue.length + n)) ||
        decide (others = [] ∧ n = left)) := by
      refine (congrArg Lane.mark run).trans ?_
      simp only [Lane.repairedRows, Lane.repaired, List.length_map, List.length_range]
      rfl
    rw [mark, alarm]
    cases l.live.alarm <;> simp
  · refine (congrArg (fun t => t.live.watermark) run).trans ?_
    simp only [Lane.repairedRows, Lane.repaired, List.length_map, List.length_range]
  · rw [run]
    exact ⟨rfl, rfl, rfl, rfl, rfl, rfl, rfl⟩

/-! ### Audits (05, R106 and R107) -/

section
variable {l : Lane} (store : Store) (set : Settings)

/-- One AUDIT of the next segment (05, R107). -/
theorem Lane.placeAudit_eq (l : Lane) :
    l.placeAudit store set =
      let placed := l.enqueued set.threshold (.audit l.live.nextAudit (store.digest l.profile l.live.nextAudit))
      { placed with live := { placed.live with nextAudit := (l.live.nextAudit + 1) % store.segments } } := by
  rw [Lane.placeAudit, Lane.enqueue_eq]

theorem Lane.placeAudit_length (l : Lane) : (l.placeAudit store set).live.queue.length = l.live.queue.length + 1 := by
  rw [Lane.placeAudit_eq]
  exact List.length_append

theorem Lane.placeAudit_debt (l : Lane) : (l.placeAudit store set).live.debt = l.live.debt := by
  rw [Lane.placeAudit_eq]
  rfl

/-- An audit is owed above depth 2,048 (05, R107). -/
theorem Lane.auditExpiry_defers (deep : 2048 < l.live.queue.length) (few : l.live.debt < 8) :
    l.auditExpiry store set = { l with live := { l.live with debt := l.live.debt + 1 } } := if_pos ⟨deep, few⟩

/-- One audit is placed, and none is paid (05, R107). -/
theorem Lane.auditExpiry_one (near : l.live.queue.length ≤ 2048 ∨ 8 ≤ l.live.debt) (room : l.live.queue.length < 4096)
    (unpaid : l.live.debt = 0 ∨ 2048 ≤ l.live.queue.length) : l.auditExpiry store set = l.placeAudit store set := by
  have stays : ¬(2048 < l.live.queue.length ∧ l.live.debt < 8) := by omega
  refine (if_neg stays).trans ((if_pos room).trans (if_neg ?_))
  rw [Lane.placeAudit_debt, Live.depth, Lane.placeAudit_length, Config.auditDepth]
  omega

/-- Two audits are placed, the second of which pays a unit of debt (05, R107). -/
theorem Lane.auditExpiry_two (near : l.live.queue.length < 2048) (owed : 0 < l.live.debt) :
    l.auditExpiry store set =
      let placed := (l.placeAudit store set).placeAudit store set
      { placed with live := { placed.live with debt := placed.live.debt - 1 } } := by
  have stays : ¬(2048 < l.live.queue.length ∧ l.live.debt < 8) := by omega
  have room : l.live.queue.length < 4096 := by omega
  refine (if_neg stays).trans ((if_pos room).trans (if_pos ?_))
  rw [Lane.placeAudit_debt, Live.depth, Lane.placeAudit_length, Config.auditDepth, Config.applyCapacity]
  omega

/-- A full queue takes none (05, R107). -/
theorem Lane.auditExpiry_full (full : 4096 ≤ l.live.queue.length) (owed : 8 ≤ l.live.debt) : l.auditExpiry store set = l := by
  have stays : ¬(2048 < l.live.queue.length ∧ l.live.debt < 8) := by omega
  exact (if_neg stays).trans (if_neg (Nat.not_lt.2 full))

end

/-- An expiry that is due acts, and the timer starts again (05, R106). -/
theorem execAuditTimerExpiry_due {s : State} {i : Slot} (awake : s.inReset = false) (live : (s.lane i).state = .live)
    (due : (s.lane i).live.auditTimer = some 0) {acted : Lane} (expiry : (s.lane i).auditExpiry s.store s.settings = acted) :
    exec (.auditTimerExpiry i) s = .next
      { s with
        lanes := s.lanes.set i
          { acted with
            live :=
              { acted.live with
                auditTimer := if s.settings.interval = 0 then none else some (s.settings.interval * 10000) } } } := by
  refine congrArg Host.Outcome.next ((s.unlessReset_run _ awake).trans (congrArg (s.setLane i) ?_))
  rw [Lane.auditTick, if_pos ⟨live, (Timer.ranOut_iff _).2 due⟩, expiry]
  rfl

/-- Settles O36: the scheduler's action by depth and debt, once the expiry is due. -/
theorem auditExpiry_placesOrDefers : Obligations.AuditExpiry_PlacesOrDefers := by
  intro s i awake l depth timer next entry one two
  refine ⟨fun undue => execAuditTimerExpiry_of_notDue (if_neg fun due => ?_), fun live due => ⟨?_, ?_, ?_, ?_⟩⟩
  · exact undue.elim (· due.1) (· ((Timer.ranOut_iff _).1 due.2))
  · exact fun deep few => execAuditTimerExpiry_due awake live due (l.auditExpiry_defers _ _ deep few)
  · intro near room unpaid
    rw [execAuditTimerExpiry_due awake live due (l.auditExpiry_one _ _ near room unpaid), Lane.placeAudit_eq]
    rfl
  · intro near owed
    rw [execAuditTimerExpiry_due awake live due (l.auditExpiry_two _ _ near owed), Lane.placeAudit_eq, Lane.placeAudit_eq]
    rfl
  · exact fun full owed => execAuditTimerExpiry_due awake live due (l.auditExpiry_full _ _ full owed)

end Sys2Proof.Machine
end

section
/-! SUPPORT. The end of a job's work (06, R130 and R138; 07, R162 and R171): what holds it up, and what a drained freeze goes on to. -/

namespace Sys2Proof.Machine

/-- The work goes on with a grant of the job, a burst of it, or rows to send (06, R130 and R138; 07, R162). -/
theorem State.endOfWork_waits {s : State} {j : JobNo} {job : Job} (hj : s.job j = some job)
    (busy : s.granted j = true ∨ (s.lane job.slot).tx.outstanding.isSome = true ∨
      (job.state = .sweep ∧ job.sweepCursor < s.store.size) ∨
      (job.state = .drain ∧ ∃ row ∈ job.dirty, job.drainCursor ≤ row) ∨ (job.state = .freeze ∧ job.dirty ≠ [])) :
    s.endOfWork j = s := by
  rw [State.endOfWork, hj]
  by_cases out : (s.granted j || s.burstOut job) = true
  · exact if_pos out
  · refine (if_neg out).trans ?_
    simp only [Bool.or_eq_true, State.burstOut] at out
    rcases busy with granted | sent | ⟨sweep, unread⟩ | ⟨drain, row, listed, above⟩ | ⟨freeze, filled⟩
    · exact absurd (.inl granted) out
    · exact absurd (.inr sent) out
    · simp only [sweep]
      exact if_neg unread.not_ge
    · have more : job.nextDirty ≠ none := fun none => (above.trans_lt ((Job.nextDirty_eq_none job).1 none row listed)).false
      simp only [drain]
      exact if_neg more
    · simp only [freeze]
      exact if_neg filled

/-- The drained freeze ends with nothing of the job in progress (07, R162). -/
theorem State.endOfWork_drained {s : State} {j : JobNo} {job : Job} (hj : s.job j = some job) (free : s.granted j = false)
    (released : (s.lane job.slot).tx.outstanding = none) (freeze : job.state = .freeze) (empty : job.dirty = []) :
    s.endOfWork j = s.freezeDrained j job := by
  rw [State.endOfWork, hj]
  refine (if_neg (by simp [free, State.burstOut, released])).trans ?_
  simp only [freeze]
  exact if_pos empty

/-- Settles O45: what holds the work up, then the drained freeze by its verify policy. -/
theorem endOfWork_waitsOrCutsOver : Obligations.EndOfWork_WaitsOrCutsOver := by
  intro s j job hj
  refine ⟨State.endOfWork_waits hj, fun free released freeze empty => ?_⟩
  rw [State.endOfWork_drained hj free released freeze empty, State.freezeDrained]
  refine ⟨fun verify => if_pos verify, fun off loading => ?_⟩
  rw [if_neg (by rw [off]; decide), State.endJob_eq hj, Lane.jobEnded_live loading, free]
  rfl

end Sys2Proof.Machine
end

section
/-! SUPPORT. The jobs' fields and dirty sets, command by command (06, R119, R132, R133 and R142; 07, R148, R152 and R162): the ranges
that a job has in every state, what each change of an entry makes of them, and each move of the part. -/

namespace Sys2Proof.Machine

/-! ### The estimates (07, R151 and R152) -/

/-- One step of an estimate in natural numbers: toward sixteen times the sample, by the difference shifted down (07, R152). -/
theorem filterEstimate_eq (shift e sample : Nat) :
    filterEstimate shift e sample =
      if e ≤ 16 * sample then e + (16 * sample - e) / 2 ^ shift else e - (e - 16 * sample) / 2 ^ shift := by
  unfold filterEstimate
  split
  · next up =>
    have difference : 16 * (sample : Int) - e = ((16 * sample - e : Nat) : Int) := by omega
    rw [difference, ← Int.ofNat_tdiv, ← Int.natCast_add, Int.toNat_natCast]
  · next down =>
    have difference : 16 * (sample : Int) - e = -((e - 16 * sample : Nat) : Int) := by omega
    have shifted := Nat.div_le_self (e - 16 * sample) (2 ^ shift)
    rw [difference, Int.neg_tdiv, ← Int.ofNat_tdiv]
    omega

/-- An estimate after an expiry: the seed, or one step (07, R151 and R152). -/
theorem nextEstimate_eq (sampled shift e sample : Nat) :
    nextEstimate sampled shift e sample =
      if sampled = 0 then 16 * sample
      else if e ≤ 16 * sample then e + (16 * sample - e) / 2 ^ shift
      else e - (e - 16 * sample) / 2 ^ shift := by
  rw [nextEstimate, filterEstimate_eq]

/-- An estimate stays within sixteen times the greatest count (07, R152). -/
theorem nextEstimate_le {sampled shift e sample : Nat} (estimate : e ≤ 1048560) (counted : sample ≤ 65535) :
    nextEstimate sampled shift e sample ≤ 1048560 := by
  have shifted := Nat.div_le_self (16 * sample - e) (2 ^ shift)
  rw [nextEstimate_eq]
  split
  · omega
  · split
    · omega
    · exact (Nat.sub_le _ _).trans estimate

/-! ### An entry within its rules -/

/-- The ranges that an entry's figures have in every state, at an outcome too (06, R119 and R121; 07, R148 and R152). -/
structure Job.FiguresFit (j : Job) : Prop where
  budget : 1 ≤ j.policy.budget ∧ j.policy.budget ≤ 65535
  stall_limit : 1 ≤ j.policy.stallLimit ∧ j.policy.stallLimit ≤ 15
  pass_limit : 1 ≤ j.policy.passLimit ∧ j.policy.passLimit ≤ 63
  shift : j.policy.shift ≤ 6
  pass : j.pass ≤ j.policy.passLimit
  stall : j.stall ≤ j.policy.stallLimit
  freezes : j.freezeAttempts ≤ 3
  rounds : j.roundsFailed ≤ 3
  counts : j.arrivals ≤ 65535 ∧ j.sends ≤ 65535 ∧ j.sampled ≤ 65535
  estimates : j.ea ≤ 1048560 ∧ j.es ≤ 1048560
  extremes : j.fastest ≤ 65535 ∧ j.slowest ≤ 65535

/-- The entry and its dirty set are as `State.JobsFit` has them. -/
abbrev Job.Fits (j : Job) : Prop := j.FieldsFit ∧ j.DirtyFits

/-- A job that holds a freeze is not terminal. -/
theorem JobState.working_of_frozen {x : JobState} (h : x.frozen = true) : x.working = true := by
  cases x <;> simp_all [JobState.frozen, JobState.working]

section
variable {j : Job}

theorem Job.FieldsFit.figures (h : j.FieldsFit) : j.FiguresFit := { h with freezes := h.freezes.1, rounds := h.rounds.1 }

/-- A job in FREEZE or VERIFY has its freeze timer running, and no other job has (07, R160). -/
theorem Job.FieldsFit.thawed (h : j.FieldsFit) (free : j.state.frozen = false) : j.freezeTimer = none := by
  rw [← Option.not_isSome_iff_eq_none, h.frozen_timer.not]
  simp [free]

/-- A job at its outcome (06, R142): both timers stopped and the set empty. -/
theorem Job.FiguresFit.finish (h : j.FiguresFit) {outcome : JobState} (terminal : outcome.working = false) :
    (j.finish outcome).Fits := by
  have still : (j.finish outcome).state.working = false := terminal
  have free : outcome.frozen = false := Bool.eq_false_iff.2 fun frozen => by
    rw [JobState.working_of_frozen frozen] at terminal
    cases terminal
  refine ⟨{ h with
    freezes := ⟨h.freezes, fun on => absurd (still.symm.trans on) (by decide)⟩
    rounds := ⟨h.rounds, fun on => absurd (still.symm.trans on) (by decide)⟩
    freeze_timer := by simp [Job.finish]
    frozen_timer := by simp [Job.finish, free]
    sample_timer := by simp [Job.finish, terminal] }, ?_⟩
  exact ⟨by simp [Job.finish], fun _ => rfl, by simp [Job.finish], by simp [Job.finish]⟩

/-- A job starts with its policy in its ranges and every figure at 0 (06, R121 and R122). -/
theorem Job.accepted_fits (i : Slot) (profile : Profile) {policy : Policy}
    (budget : 1 ≤ policy.budget ∧ policy.budget ≤ 65535) (stall : 1 ≤ policy.stallLimit ∧ policy.stallLimit ≤ 15)
    (pass : 1 ≤ policy.passLimit ∧ policy.passLimit ≤ 63) (shift : policy.shift ≤ 6) :
    (Job.accepted i profile policy).Fits := by
  refine ⟨⟨budget, stall, pass, shift, Nat.zero_le _, Nat.zero_le _, ?_, ?_, ?_, ?_, ?_, ?_, ?_, ?_⟩, ?_, ?_, ?_, ?_⟩ <;>
    simp [Job.accepted, JobState.frozen]

/-! ### The dirty set -/

/-- An offered row joins the set as one arrival (06, R133 and R135; 07, R150). -/
theorem Job.Fits.offer (h : j.Fits) (kind : Kind) (row : Nat) : (Job.offer kind row j).Fits := by
  obtain ⟨fields, dirty⟩ := h
  rw [Job.offer_eq, Job.offered]
  split
  · next taken =>
    obtain ⟨_, taker, _⟩ := taken
    refine ⟨{ fields with counts := ⟨Nat.min_le_left _ _, fields.counts.2⟩ },
      dirtyInsert_ascending row dirty.ascending, fun idle => ?_, fun sweep x hx => ?_, fun freeze => ?_⟩
    · rcases taker with ⟨e, _⟩ | e <;> simp [e, JobState.working] at idle
    · have below : row < j.sweepCursor := taker.elim And.right fun drain => by
        cases drain.symm.trans sweep
      exact ((mem_dirtyInsert _ _ _).1 hx).elim (fun e => e ▸ below) (dirty.swept sweep x)
    · have freeze : j.state = .freeze := freeze
      rcases taker with ⟨e, _⟩ | e <;> simp [e] at freeze
  · exact ⟨fields, dirty⟩

/-- The row that a drain takes leaves the set, and the cursor moves past it (06, R137): every row above it stays at or above the
cursor. -/
theorem Job.Fits.taken (h : j.Fits) {row : Nat} (next : j.nextDirty = some row) (draining : j.state = .drain ∨ j.state = .freeze) :
    ({ j with dirty := j.dirty.erase row, drainCursor := row + 1 } : Job).Fits := by
  obtain ⟨fields, dirty⟩ := h
  refine ⟨{ fields with }, dirty.ascending.sublist List.erase_sublist, fun idle => ?_, fun sweep => ?_, fun freeze x hx => ?_⟩
  · rcases draining with e | e <;> simp [e, JobState.working] at idle
  · have sweep : j.state = .sweep := sweep
    rcases draining with e | e <;> simp [e] at sweep
  · have once : j.dirty.Nodup := dirty.ascending.imp Nat.ne_of_lt
    obtain ⟨other, listed⟩ := (once.mem_erase_iff).1 hx
    have least := Job.nextDirty_least next dirty.ascending listed (dirty.frozen freeze x listed)
    exact Nat.lt_of_le_of_ne least other.symm

/-- An examined row lies below the sweep cursor (06, R129 and R133). -/
theorem Job.Fits.examined (h : j.Fits) (store : Store) : (j.examined store).Fits :=
  ⟨{ h.1 with }, { h.2 with swept := fun sweep x hx => Nat.lt_succ_of_lt (h.2.swept sweep x hx) }⟩

/-- The rows of the differing segments keep the set ascending (07, R169). -/
theorem Job.redirty_ascending (segments : List Nat) {dirty : List Nat} (h : dirty.Pairwise (· < ·)) :
    (segments.foldr dirtySegment dirty).Pairwise (· < ·) := by
  induction segments with
  | nil => exact h
  | cons segment segments ih =>
    rw [List.foldr_cons]
    exact dirtySegment_ascending segment ih

/-! ### Changes that leave the job's state -/

/-- A grant of the job begins (06, R124; 07, R166). -/
theorem Job.Fits.opened (h : j.Fits) : j.opened.Fits := by
  unfold Job.opened
  split
  · exact ⟨{ h.1 with }, { h.2 with }⟩
  · exact h

theorem Job.Fits.countSends (h : j.Fits) (frames : List Frame) : (j.countSends frames).Fits :=
  ⟨{ h.1 with counts := ⟨h.1.counts.1, Nat.min_le_left _ _, h.1.counts.2.2⟩ }, { h.2 with }⟩

theorem Job.Fits.record (h : j.Fits) (outcome : EvalOutcome) (n t : Nat) : (j.record outcome n t).Fits :=
  ⟨{ h.1 with }, { h.2 with }⟩

/-- The stall count is 0, or has gone up by one to its limit at most (07, R157). -/
theorem Job.Fits.countStall (h : j.Fits) : j.countStall.Fits := by
  unfold Job.countStall
  split
  · refine ⟨{ h.1 with stall := ?_ }, { h.2 with }⟩
    simp only []
    split
    · split
      · exact Nat.min_le_left _ _
      · exact Nat.zero_le _
    · exact Nat.zero_le _
  · exact h

@[simp] theorem Job.countStall_state (j : Job) : j.countStall.state = j.state := by
  unfold Job.countStall
  split <;> rfl

/-- A sample period ends and the next starts (07, R151 to R153). -/
theorem Job.Fits.sample (h : j.Fits) (due : j.sampleTimer = some 0) : j.sample.Fits := by
  obtain ⟨fields, dirty⟩ := h
  have runs := fields.sample_timer
  rw [due] at runs
  refine ⟨{ fields with
    sample_timer := runs
    counts := ⟨Nat.zero_le _, Nat.zero_le _, Nat.min_le_left _ _⟩
    estimates := ⟨nextEstimate_le fields.estimates.1 fields.counts.1, nextEstimate_le fields.estimates.2 fields.counts.2.1⟩
    extremes := ⟨Nat.max_le.2 ⟨fields.extremes.1, fields.counts.2.1⟩, (Nat.min_le_left _ _).trans fields.extremes.2⟩ },
    { dirty with }⟩

/-- A microsecond on the job's timers. -/
theorem Job.Fits.tick (h : j.Fits) : j.tick.Fits := by
  obtain ⟨fields, dirty⟩ := h
  refine ⟨{ fields with freeze_timer := fun n hn => ?_, frozen_timer := ?_, sample_timer := ?_ }, { dirty with }⟩
  · obtain ⟨m, hm, rfl⟩ := Option.map_eq_some_iff.1 hn
    exact (Nat.sub_le m 1).trans (fields.freeze_timer m hm)
  · simpa [Job.tick, Timer.tick] using fields.frozen_timer
  · simpa [Job.tick, Timer.tick] using fields.sample_timer

/-! ### Changes of the job's state -/

/-- WIPE goes to SWEEP with nothing dirty (06, R128; 07, R149). -/
theorem Job.Fits.startSweep (h : j.Fits) (wipe : j.state = .wipe) : j.startSweep.Fits := by
  obtain ⟨fields, dirty⟩ := h
  have working : j.state.working = true := by rw [wipe]; rfl
  have free := fields.thawed (by rw [wipe]; rfl)
  have empty := dirty.empty (.inl wipe)
  refine ⟨{ fields with
    freezes := ⟨fields.freezes.1, fun _ => fields.freezes.2 working⟩
    rounds := ⟨fields.rounds.1, fun _ => fields.rounds.2 working⟩
    frozen_timer := by simp [Job.startSweep, free, JobState.frozen]
    sample_timer := by simp [Job.startSweep, JobState.working] }, dirty.ascending, fun _ => empty, ?_, ?_⟩ <;>
  simp [Job.startSweep, empty]

/-- FREEZE from SWEEP, DRAIN or VERIFY, with any ascending set (07, R160 and R169). -/
theorem Job.FieldsFit.enterFreeze (h : j.FieldsFit) (working : j.state.working = true) (begun : j.state ≠ .wipe) {dirty : List Nat}
    (ascending : dirty.Pairwise (· < ·)) : ({ j.enterFreeze with dirty } : Job).Fits := by
  have sampled := h.sample_timer.2 ⟨working, begun⟩
  refine ⟨{ h with
    freezes := ⟨h.freezes.1, fun _ => h.freezes.2 working⟩
    rounds := ⟨h.rounds.1, fun _ => h.rounds.2 working⟩
    freeze_timer := fun n hn => ?_
    frozen_timer := by simp [Job.enterFreeze, JobState.frozen]
    sample_timer := by simp [Job.enterFreeze, JobState.working, sampled] }, ascending, ?_, ?_, fun _ _ _ => Nat.zero_le _⟩
  · obtain rfl := Option.some.inj hn
    rcases e : j.freezeTimer with _ | m
    · exact Nat.le_refl _
    · exact h.freeze_timer m e
  · simp [Job.enterFreeze, JobState.working]
  · simp [Job.enterFreeze]

/-- VERIFY from a drained FREEZE (07, R162). -/
theorem Job.Fits.startVerify (h : j.Fits) (freeze : j.state = .freeze) (empty : j.dirty = []) :
    ({ j.startRound with state := .verify, mark := true } : Job).Fits := by
  obtain ⟨fields, dirty⟩ := h
  have working : j.state.working = true := by rw [freeze]; rfl
  have sampled := fields.sample_timer.2 ⟨working, by simp [freeze]⟩
  have frozen := fields.frozen_timer.2 (by rw [freeze]; rfl)
  exact ⟨{ fields with
    freezes := ⟨fields.freezes.1, fun _ => fields.freezes.2 working⟩
    rounds := ⟨fields.rounds.1, fun _ => fields.rounds.2 working⟩
    frozen_timer := by simp [Job.startRound, JobState.frozen, frozen]
    sample_timer := by simp [Job.startRound, JobState.working, sampled] },
    dirty.ascending, fun _ => empty, by simp, by simp⟩

/-- A drain pass starts from SWEEP or DRAIN (06, R136). -/
theorem Job.Fits.startPass (h : j.Fits) (unfrozen : j.state = .sweep ∨ j.state = .drain) {pass : Nat} (few : pass ≤ j.policy.passLimit) :
    (j.startPass pass).Fits := by
  obtain ⟨fields, dirty⟩ := h
  have working : j.state.working = true := by rcases unfrozen with e | e <;> rw [e] <;> rfl
  have free := fields.thawed (by rcases unfrozen with e | e <;> rw [e] <;> rfl)
  have sampled := fields.sample_timer.2 ⟨working, by rcases unfrozen with e | e <;> simp [e]⟩
  exact ⟨{ fields with
    pass := few
    freezes := ⟨fields.freezes.1, fun _ => fields.freezes.2 working⟩
    rounds := ⟨fields.rounds.1, fun _ => fields.rounds.2 working⟩
    frozen_timer := by simp [Job.startPass, free, JobState.frozen]
    sample_timer := by simp [Job.startPass, JobState.working, sampled] },
    dirty.ascending, by simp [Job.startPass, JobState.working], by simp [Job.startPass], by simp [Job.startPass]⟩

/-- A freeze is lifted by its first or second expiry (07, R163). -/
theorem Job.Fits.thaw (h : j.Fits) (frozen : j.state.frozen = true) (few : j.freezeAttempts + 1 < 3) : j.thaw.Fits := by
  obtain ⟨fields, dirty⟩ := h
  have working := JobState.working_of_frozen frozen
  have sampled := fields.sample_timer.2 ⟨working, fun wipe => by rw [wipe] at frozen; cases frozen⟩
  have attempts : j.freezeAttempts + 1 ≤ 2 := Nat.le_of_lt_succ few
  exact ⟨{ fields with
    pass := Nat.min_le_left _ _
    freezes := ⟨attempts.trans (by decide), fun _ => attempts⟩
    rounds := ⟨fields.rounds.1, fun _ => fields.rounds.2 working⟩
    freeze_timer := by simp [Job.thaw]
    frozen_timer := by simp [Job.thaw, Job.startPass, JobState.frozen]
    sample_timer := by simp [Job.thaw, Job.startPass, Job.startRound, JobState.working, sampled] },
    dirty.ascending, by simp [Job.thaw, Job.startPass, JobState.working], by simp [Job.thaw, Job.startPass],
    by simp [Job.thaw, Job.startPass]⟩

end

/-! ### The job table -/

section
variable {s : State}

theorem State.JobsFit.entry (h : s.JobsFit) {j : JobNo} {job : Job} (hj : s.job j = some job) : job.Fits := h j job hj

theorem State.JobsFit.of_jobs {t : State} (h : s.JobsFit) (jobs : t.jobs = s.jobs) : t.JobsFit :=
  fun j job hj => h j job ((congrArg (fun v : Vector (Option Job) 4 => v[j]) jobs).symm.trans hj)

theorem State.JobsFit.setJob (h : s.JobsFit) (j : JobNo) {e : Option Job} (fits : ∀ job ∈ e, job.Fits) : (s.setJob j e).JobsFit := by
  intro k job hk
  rw [State.job_setJob] at hk
  split at hk
  · exact fits job hk
  · exact h k job hk

/-- One entry changes. -/
theorem State.JobsFit.setJob_some (h : s.JobsFit) (j : JobNo) {job : Job} (fits : job.Fits) : (s.setJob j (some job)).JobsFit :=
  h.setJob j fun _ hx => Option.some.inj hx ▸ fits

theorem State.JobsFit.mapJobs (h : s.JobsFit) {f : Job → Job} (fits : ∀ job, job.Fits → (f job).Fits) : (s.mapJobs f).JobsFit := by
  intro j job hj
  rw [State.job_mapJobs] at hj
  obtain ⟨before, hb, rfl⟩ := Option.map_eq_some_iff.1 hj
  exact fits before (h j before hb)

/-- An entry changes and its job ends: of the entry before the end only the figures count. -/
theorem State.JobsFit.setJob_endJob (h : s.JobsFit) (j : JobNo) {job : Job} (figures : job.FiguresFit) {outcome : JobState}
    (terminal : outcome.working = false) : ((s.setJob j (some job)).endJob j outcome).JobsFit := by
  rw [State.endJob_eq (State.job_setJob_self s j (some job))]
  exact (h.setJob_some j (figures.finish terminal)).of_jobs (by simp [State.setJob, Job.finish_eq])

theorem State.JobsFit.endJob (h : s.JobsFit) (j : JobNo) {outcome : JobState} (terminal : outcome.working = false) :
    (s.endJob j outcome).JobsFit := by
  rcases hj : s.job j with _ | job
  · rw [State.endJob, hj]
    exact h
  · rw [← State.setJob_same hj]
    exact h.setJob_endJob j (h.entry hj).1.figures terminal

/-! ### The end of a job's work (06, R130 and R138; 07, R156 to R162) -/

theorem State.JobsFit.freezeDrained (h : s.JobsFit) (j : JobNo) {job : Job} (fits : job.Fits) (freeze : job.state = .freeze)
    (empty : job.dirty = []) : (s.freezeDrained j job).JobsFit := by
  unfold State.freezeDrained
  split
  · exact h.setJob_some j (fits.startVerify freeze empty)
  · exact h.endJob j rfl

theorem State.JobsFit.freeze (h : s.JobsFit) (j : JobNo) {job : Job} (fits : job.Fits)
    (unfrozen : job.state = .sweep ∨ job.state = .drain) : (s.freeze j job).JobsFit := by
  have entered : job.enterFreeze.Fits :=
    fits.1.enterFreeze (by rcases unfrozen with e | e <;> rw [e] <;> rfl) (by rcases unfrozen with e | e <;> simp [e])
      fits.2.ascending
  have set := h.setJob_some j entered
  unfold State.freeze
  simp only []
  split
  · next empty => exact set.freezeDrained j entered rfl empty
  · exact set

theorem State.JobsFit.evaluate (h : s.JobsFit) (j : JobNo) {job : Job} (fits : job.Fits)
    (unfrozen : job.state = .sweep ∨ job.state = .drain) : (s.evaluate j job).JobsFit := by
  have counted : job.countStall.state = .sweep ∨ job.countStall.state = .drain := by
    rw [Job.countStall_state]
    exact unfrozen
  unfold State.evaluate
  simp only []
  split
  · exact h.freeze j (fits.record ..) unfrozen
  · split
    · split
      · exact h.freeze j (fits.countStall.record ..) counted
      · exact h.setJob_endJob j (fits.countStall.record ..).1.figures rfl
    · next inside =>
      have left := fits.countStall.1.pass
      exact h.setJob_some j ((fits.countStall.record ..).startPass counted
        (Nat.lt_of_le_of_ne left fun last => inside (.inr last)))

theorem State.JobsFit.endOfWork (h : s.JobsFit) (j : JobNo) : (s.endOfWork j).JobsFit := by
  unfold State.endOfWork
  split
  · exact h
  · next job hj =>
    have fits := h.entry hj
    split
    · exact h
    · split
      · next sweep =>
        split
        · exact h.evaluate j fits (.inl sweep)
        · exact h
      · next drain =>
        split
        · exact h.evaluate j fits (.inr drain)
        · exact h
      · next freeze =>
        split
        · next empty => exact h.freezeDrained j fits freeze empty
        · exact h
      all_goals exact h

/-! ### A retired burst (06, R128 and R139; 07, R166 to R169) -/

theorem State.JobsFit.endRound (h : s.JobsFit) (j : JobNo) {job : Job} (fits : job.Fits) (verify : job.state = .verify) :
    (s.endRound j job).JobsFit := by
  obtain ⟨fields, dirty⟩ := fits
  have working : job.state.working = true := by rw [verify]; rfl
  have rounds := fields.rounds.2 working
  unfold State.endRound
  simp only []
  split
  · exact h.setJob_endJob j fields.figures rfl
  · split
    · next few =>
      have counted : ({ job with roundsFailed := job.roundsFailed + 1 } : Job).startRound.FieldsFit :=
        { fields with rounds := ⟨few.le, fun _ => Nat.le_of_lt_succ few⟩ }
      exact h.setJob_some j (counted.enterFreeze working (by simp [Job.startRound, verify])
        (Job.redirty_ascending _ dirty.ascending))
    · exact h.setJob_endJob j (job := { job with roundsFailed := job.roundsFailed + 1 })
        { fields.figures with rounds := Nat.succ_le_succ rounds } rfl

theorem State.JobsFit.verifyAnswer (h : s.JobsFit) (j : JobNo) {job : Job} (fits : job.Fits) (verify : job.state = .verify)
    (segment : Nat) (digest : Word32) : (s.verifyAnswer j job segment digest).JobsFit := by
  have answered : ∀ mismatched, ({ job with answered := job.answered + 1, mismatched } : Job).Fits :=
    fun _ => ⟨{ fits.1 with }, { fits.2 with }⟩
  unfold State.verifyAnswer
  simp only []
  split
  · exact h.endRound j (answered _) verify
  · exact h.setJob_some j (answered _)

theorem State.JobsFit.reportRetired (h : s.JobsFit) (j : JobNo) (frames : List Frame) (digest : Option Word32) :
    (s.reportRetired j frames digest).JobsFit := by
  unfold State.reportRetired
  split
  · exact h
  · next before hj =>
    have counted := (h.entry hj).countSends frames
    have drained := (h.setJob_some j counted).endOfWork j
    simp only []
    split
    · next wipe => exact h.setJob_some j (counted.startSweep wipe)
    · exact drained
    · exact drained
    · exact drained
    · next verify =>
      split
      · exact h.verifyAnswer j counted verify _ _
      · exact h.setJob_some j counted
    all_goals exact h

/-! ### The other events -/

theorem State.JobsFit.arbitrate (h : s.JobsFit) : s.arbitrate.JobsFit := by
  rcases s.arbitrate_cases with ⟨e, _⟩ | ⟨k, job, fp, lp, _, _, hj, e⟩ <;> rw [e]
  · exact h
  · exact (h.setJob_some k (h.entry hj).opened).of_jobs rfl

theorem State.JobsFit.failJobOn (h : s.JobsFit) (i : Slot) (cause : JobCause) : (s.failJobOn i cause).JobsFit := by
  unfold State.failJobOn
  split
  · exact (h.endJob _ rfl).arbitrate
  · exact h

theorem State.JobsFit.applyChange (h : s.JobsFit) (store : Store) (kind : Kind) (row : Nat) (entry : Profile → Option ApplyEntry) :
    (s.applyChange store kind row entry).JobsFit :=
  State.JobsFit.arbitrate
    (State.JobsFit.mapJobs (s := { s with store }.mapLanes (Lane.feed s.settings kind entry)) (h.of_jobs rfl)
      fun _ fits => fits.offer kind row)

/-- What COPY_START stores of its policy is within the ranges (06, R121). -/
theorem storedPolicy_fits (m : List Byte) (i : Slot) (profile : Profile) : (Job.accepted i profile (storedPolicy m)).Fits := by
  have budget : fieldAt m 9 2 < 2 ^ 16 := fieldAt_lt m 9 2
  refine Job.accepted_fits i profile ⟨Nat.le_max_left _ _, ?_⟩ (clamp_bounds (by decide) _) (clamp_bounds (by decide) _)
    (Nat.min_le_left _ _)
  simp only [storedPolicy]
  omega

/-- The policy of an accepted COPY_START is the one its request carries (06, R121 and R122). -/
theorem State.copyVerdict_policy {m : List Byte} {i : Slot} {facts : BoardFacts} {policy : Policy} {j : JobNo}
    (h : s.copyVerdict m = .ok (i, facts, policy, j)) : policy = storedPolicy m := by
  by_cases known : PolicyKnown m
  · unfold State.copyVerdict at h
    rw [requestPolicy_known known] at h
    split at h
    · next carried =>
      obtain rfl := Option.some.inj carried
      (repeat' split at h) <;> cases h
      rfl
    · cases h
  · rw [State.copyVerdict_badRequest (.inr known)] at h
    cases h

theorem State.JobsFit.startJob (h : s.JobsFit) {m : List Byte} {i : Slot} {facts : BoardFacts} {policy : Policy} {j : JobNo}
    (verdict : s.copyVerdict m = .ok (i, facts, policy, j)) : (s.startJob i facts policy j).JobsFit := by
  obtain rfl := State.copyVerdict_policy verdict
  have set := h.setJob_some j (storedPolicy_fits m i facts.profile)
  exact State.JobsFit.arbitrate (set.of_jobs rfl)

theorem State.JobsFit.examineRow (h : s.JobsFit) : s.examineRow.JobsFit := by
  unfold State.examineRow
  split
  · next g job e =>
    obtain ⟨_, hj⟩ := State.grantJob_some e
    split
    · exact (h.setJob_some g.job ((h.entry hj).examined s.store)).of_jobs rfl
    · exact h
  · exact h

theorem State.JobsFit.takeRow (h : s.JobsFit) : s.takeRow.JobsFit := by
  unfold State.takeRow
  split
  · next g job e =>
    obtain ⟨_, hj⟩ := State.grantJob_some e
    split
    · next row found =>
      unfold Grant.mayDrain at found
      split at found
      · next may => exact (h.setJob_some g.job ((h.entry hj).taken found may.1)).of_jobs rfl
      · cases found
    · exact h
  · exact h

theorem State.JobsFit.completeGrant (h : s.JobsFit) : s.completeGrant.JobsFit := by
  have free : ({ s with grant := none } : State).JobsFit := h.of_jobs rfl
  rcases s.completeGrant_cases with e | ⟨g, job, _, _, ⟨_, e⟩ | ⟨_, e⟩⟩ <;> rw [e]
  · exact h
  · exact (free.endOfWork g.job).arbitrate
  · exact State.JobsFit.arbitrate (free.of_jobs rfl)

theorem State.JobsFit.freezeExpired (h : s.JobsFit) (j : JobNo) : (s.freezeExpired j).JobsFit := by
  unfold State.freezeExpired
  split
  · next job hj =>
    obtain ⟨fields, dirty⟩ := h.entry hj
    split
    · next due =>
      have attempts := fields.freezes.2 (JobState.working_of_frozen due.1)
      split
      · next few =>
        have thawed := h.setJob_some j (Job.Fits.thaw ⟨fields, dirty⟩ due.1 few)
        have closed : ((s.setJob j (some job.thaw)).closeGrant j).JobsFit := fun k x hk =>
          thawed k x ((State.closeGrant_job _ j k).symm.trans hk)
        exact (closed.endOfWork j).arbitrate
      · exact (h.setJob_endJob j (job := { job with freezeAttempts := job.freezeAttempts + 1 })
          { fields.figures with freezes := Nat.succ_le_succ attempts } rfl).arbitrate
    · exact h
  · exact h

theorem State.JobsFit.sampleExpired (h : s.JobsFit) (j : JobNo) : (s.sampleExpired j).JobsFit := by
  unfold State.sampleExpired
  split
  · next job hj =>
    split
    · next due => exact h.setJob_some j ((h.entry hj).sample ((Timer.ranOut_iff _).1 due))
    · exact h
  · exact h

theorem State.JobsFit.noticed (h : s.JobsFit) {j : JobNo} {job : Job} (hj : s.job j = some job) :
    (s.setJob j job.noticed).JobsFit := by
  unfold Job.noticed
  split
  · exact h.setJob_some j ⟨{ (h.entry hj).1 with }, { (h.entry hj).2 with }⟩
  · exact h.setJob j (by simp)

/-- A microsecond of time touches the jobs' timers alone. -/
theorem State.JobsFit.tick (h : s.JobsFit) : s.tick.JobsFit := by
  unfold State.tick
  split
  · exact h
  · exact State.JobsFit.mapJobs (s := ({ s with
      scanner := { s.scanner with nextScan := s.scanner.nextScan - 1 }, master := s.master.tick } : State).mapLanes Lane.tick)
      (h.of_jobs rfl) fun _ fits => fits.tick

end

/-! ### Every command -/

/-- Each move of the part keeps the jobs' fields and dirty sets. -/
theorem State.Moves.jobsFit {c : Instr} {s t : State} (m : State.Moves c s t) (h : s.JobsFit) : t.JobsFit := by
  cases m with
  | same => exact h
  | reset => exact fun j job hj => by simp [State.job, State.resetBlocks] at hj
  | begins => exact h.of_jobs rfl
  | completes => exact h.of_jobs rfl
  | inserts => exact h.applyChange _ _ _ _
  | updates => exact h.applyChange _ _ _ _
  | retires => exact h.applyChange _ _ _ _
  | setting => exact h.of_jobs rfl
  | setAudit => exact h.of_jobs rfl
  | turn => exact h.of_jobs rfl
  | identifies => exact h.of_jobs rfl
  | unidentifies => exact h.of_jobs rfl
  | identified => exact h.of_jobs rfl
  | masters => exact h.of_jobs rfl
  | loses i l cause =>
    have left : (s.setLane i l).JobsFit := h.of_jobs rfl
    exact left.failJobOn i cause
  | starts m i facts policy j verdict => exact h.startJob verdict
  | aborts i j => exact (h.endJob j rfl).arbitrate
  | retireJob i b j digest =>
    have released : (s.setLane i { s.lane i with tx := (s.lane i).tx.release }).JobsFit := h.of_jobs rfl
    exact (released.reportRetired j b.frames digest).arbitrate
  | examines => exact h.examineRow
  | takes => exact h.takeRow
  | grants => exact h.completeGrant
  | freezes j => exact h.freezeExpired j
  | samples j => exact h.sampleExpired j
  | noticed j job hj => exact h.noticed hj

/-- Settles O58: each change of an entry keeps its figures, its timers and its dirty set as the job's new state has them. -/
theorem step_keepsJobFields : Obligations.Step_KeepsJobFields := by
  intro s t h run
  unfold step at run
  split at run
  · injection run with run
    exact run ▸ h.tick
  · next c rest _ =>
    obtain ⟨a, b, before, move, after⟩ := exec_steps c run
    have moved : b.JobsFit := move.jobsFit ((h.of_jobs rfl : ({ s with pending := rest } : State).JobsFit).of_jobs before.jobs)
    exact moved.of_jobs after.jobs

end Sys2Proof.Machine
end

section
/-! SUPPORT. The arbiter's choice (06, R124 to R126): which jobs are eligible, which one a search meets first, and that no command
leaves an eligible job waiting at a free port. -/

namespace Sys2Proof.Machine

/-! ### Eligible jobs (06, R125) -/

/-- When a job has work in its state. -/
theorem Job.hasWork_iff (store : Store) (j : Job) :
    j.hasWork store = true ↔
      j.state = .wipe ∨ (j.state = .sweep ∧ j.sweepCursor < store.size) ∨
        ((j.state = .drain ∨ j.state = .freeze) ∧ ∃ row ∈ j.dirty, j.drainCursor ≤ row) ∨
        (j.state = .verify ∧ j.verifySegment < store.size / 4096) := by
  have left : j.nextDirty.isSome = true ↔ ∃ row ∈ j.dirty, j.drainCursor ≤ row := by
    rw [Option.isSome_iff_ne_none, ne_eq, Job.nextDirty_eq_none]
    simp
  unfold Job.hasWork
  split
  case h_1 wipe => simp [wipe]
  case h_2 sweep => simp [sweep]
  case h_3 drain => rw [left]; simp [drain]
  case h_4 freeze => rw [left]; simp [freeze]
  case h_5 verify => rw [decide_eq_true_iff]; simp [verify, Store.segments, Config.segmentRows]
  all_goals next other => simp [other]

/-- An eligible job has no grant, an IDLE transmitter, and work. -/
theorem State.eligible_iff (s : State) (j : JobNo) :
    s.eligible j = true ↔
      s.granted j = false ∧
        ∃ job, s.job j = some job ∧ (s.lane job.slot).tx.phase = .idle ∧ job.hasWork s.store = true := by
  constructor
  · intro eligible
    obtain ⟨job, hj, _, work, free, idle⟩ := State.eligible_working eligible
    exact ⟨free, job, hj, idle, work⟩
  · rintro ⟨free, job, hj, idle, work⟩
    simp [State.eligible, hj, work, free, idle]

/-- The freeze class holds the jobs in FREEZE or VERIFY (06, R126). -/
theorem State.freezeClass_eq {s : State} {j : JobNo} {job : Job} (hj : s.job j = some job) :
    s.freezeClass j = job.state.frozen := by
  rw [State.freezeClass, hj]

/-! ### The search (06, R126) -/

/-- The lowest job number that passes a test. -/
theorem allJobs_find?_eq_some {test : JobNo → Bool} {j : JobNo} (found : test j = true) (lowest : ∀ k < j, test k = false) :
    allJobs.find? test = some j := by
  have order : ∀ j : JobNo, allJobs = allJobs.take j ++ j :: allJobs.drop (j + 1) ∧ ∀ k ∈ allJobs.take j, k < j := by
    decide
  obtain ⟨parts, before⟩ := order j
  exact List.find?_eq_some_iff_append.2 ⟨found, _, _, parts, fun k hk => by rw [lowest k (before k hk)]; rfl⟩

/-- A search meets first the job the fewest steps upward from its pointer. -/
theorem searchJobs_eq_some {p k : JobNo} {test : JobNo → Bool} (found : test (p + k) = true)
    (before : ∀ h < k, test (p + h) = false) : searchJobs p test = some (p + k) := by
  have listed : [p, p + 1, p + 2, p + 3] = allJobs.map (p + ·) := by simp [allJobs]
  rw [searchJobs, listed, List.find?_map, allJobs_find?_eq_some (test := test ∘ (p + ·)) found before]
  rfl

/-- A search meets nothing where no job passes its test. -/
theorem searchJobs_eq_none {p : JobNo} {test : JobNo → Bool} (failed : ∀ j, test j = false) : searchJobs p test = none :=
  List.find?_eq_none.2 fun j _ => by simp [failed j]

/-! ### The port in use, kept -/

/-- The arbiter leaves no eligible job at a free port. -/
theorem State.arbitrate_portInUse (s : State) : s.arbitrate.PortInUse := by
  rcases s.arbitrate_cases with ⟨e, idle⟩ | ⟨k, job, fp, lp, _, _, _, e⟩ <;> rw [e]
  · exact idle
  · exact fun free => nomatch free

/-- A port with a grant is in use. -/
theorem State.portInUse_of_granted {s : State} {g : Grant} (h : s.grant = some g) : s.PortInUse :=
  fun free => nomatch h.symm.trans free

/-- Without jobs none is eligible. -/
theorem State.portInUse_of_jobless {s : State} (h : ∀ j, s.job j = none) : s.PortInUse := by
  intro _ j
  simp [State.eligible, h j]

/-- The port stays in use when the grant is kept, no transmitter of a LOADING lane has become IDLE, and every job with work had work
before. -/
theorem State.PortInUse.of_kept {s t : State} (h : s.PortInUse) (agree : s.Coherent) (grant : t.grant = s.grant)
    (idle : ∀ i, (s.lane i).state = .loading → (t.lane i).tx.phase = .idle → (s.lane i).tx.phase = .idle)
    (jobs : ∀ j job, t.job j = some job → job.hasWork t.store = true →
      ∃ before, s.job j = some before ∧ before.slot = job.slot ∧ before.hasWork s.store = true) : t.PortInUse := by
  intro free j
  by_contra eligible
  rw [Bool.not_eq_false, State.eligible_iff] at eligible
  obtain ⟨ungranted, job, hj, resting, work⟩ := eligible
  obtain ⟨before, hb, slot, worked⟩ := jobs j job hj work
  have held : s.TargetedBy before.slot j := by
    refine ⟨before, hb, ?_, rfl⟩
    rcases (Job.hasWork_iff s.store before).1 worked with e | ⟨e, _⟩ | ⟨e | e, _⟩ | ⟨e, _⟩ <;> rw [e] <;> rfl
  have loading := (agree.jobs.loading_iff before.slot).2 ⟨j, held⟩
  have waited : s.eligible j = true :=
    (s.eligible_iff j).2 ⟨by rw [State.granted, ← grant]; exact ungranted, before, hb, idle _ loading (slot ▸ resting), worked⟩
  rw [h (grant ▸ free) j] at waited
  cases waited

/-- Lanes, jobs and the store's size are kept for the arbiter. -/
theorem State.PortInUse.of_lanes {s t : State} (h : s.PortInUse) (agree : s.Coherent) (grant : t.grant = s.grant)
    (idle : ∀ i, (s.lane i).state = .loading → (t.lane i).tx.phase = .idle → (s.lane i).tx.phase = .idle)
    (jobs : t.jobs = s.jobs) (store : t.store = s.store) : t.PortInUse :=
  h.of_kept agree grant idle fun j job hj work =>
    ⟨job, (congrArg (fun v : Vector (Option Job) 4 => v[j]) jobs).symm.trans hj, rfl, store ▸ work⟩

/-- One lane changes, and if it is LOADING its transmitter has not become IDLE. -/
theorem State.PortInUse.setLane {s t : State} (h : s.PortInUse) (agree : s.Coherent) {i : Slot} {l : Lane}
    (idle : (s.lane i).state = .loading → l.tx.phase = .idle → (s.lane i).tx.phase = .idle) (grant : t.grant = s.grant)
    (lanes : t.lanes = (s.setLane i l).lanes) (jobs : t.jobs = s.jobs) (store : t.store = s.store) : t.PortInUse := by
  refine h.of_lanes agree grant (fun k => ?_) jobs store
  have lane : t.lane k = (s.setLane i l).lane k := congrArg (fun v : Vector Lane 16 => v[k]) lanes
  rw [lane]
  by_cases e : k = i
  · subst e
    rwa [State.lane_setLane_self]
  · rw [State.lane_setLane_of_ne s l e]
    exact fun _ => id

/-- One job's entry changes and keeps its slot, with work only if it had work before. -/
theorem State.PortInUse.setJob {s : State} (h : s.PortInUse) (agree : s.Coherent) {j : JobNo} {job after : Job}
    (hj : s.job j = some job) (slot : after.slot = job.slot)
    (work : after.hasWork s.store = true → job.hasWork s.store = true) : (s.setJob j (some after)).PortInUse := by
  refine h.of_kept agree rfl (fun _ _ => id) fun k x hk worked => ?_
  rw [State.job_setJob] at hk
  split at hk
  · next e =>
    obtain rfl := Option.some.inj hk
    exact ⟨job, e ▸ hj, slot.symm, work worked⟩
  · exact ⟨x, hk, rfl, worked⟩

/-! ### Lane events -/

/-- A LOADING lane is in no step of training. -/
theorem Lane.inStep_of_loading {l : Lane} (loading : l.state = .loading) (step : TrainStep) : l.inStep step = false := by
  rw [← Bool.not_eq_true, Lane.inStep_iff, loading]
  simp

/-- The end of a transmission on a LOADING lane begins the wait for its acknowledgement (04, R83). -/
theorem Lane.sent_idle {l : Lane} (loading : l.state = .loading) (idle : l.sent.tx.phase = .idle) : l.tx.phase = .idle := by
  unfold Lane.sent at idle
  split at idle
  · rw [if_neg (by simp [loading])] at idle
    cases idle
  · assumption
  · exact idle

/-- No event of a LOADING lane alone makes its transmitter IDLE: its job's burst is outstanding until it is retired to the job or the
job is lost (04, R84 and R94). -/
theorem Lane.Turns.idle {store : Store} {set : Settings} {k l : Lane} (event : Lane.Turns store set k l) (sane : k.Sane)
    (loading : k.state = .loading) (idle : l.tx.phase = .idle) : k.tx.phase = .idle := by
  have elsewhere : ∀ {x : LaneState}, k.state = x → x ≠ .loading → k.tx.phase = .idle :=
    fun e other => absurd (e.symm.trans loading) other
  have departed : k.state = .training ∨ k.state = .ready ∨ k.state = .live ∨ k.state = .faulted → k.tx.phase = .idle := by
    rintro (e | e | e | e) <;> exact elsewhere e (by decide)
  cases event with
  | unmark => exact idle
  | sent => exact Lane.sent_idle loading idle
  | alignExpired =>
    rw [Lane.alignExpired, Lane.inStep_of_loading loading] at idle
    exact idle
  | replyExpired =>
    rw [Lane.replyExpired, Lane.inStep_of_loading loading] at idle
    exact idle
  | locked =>
    rw [Lane.takeLocked, Lane.inStep_of_loading loading] at idle
    exact idle
  | pattern failures =>
    rw [Lane.takePattern, Lane.inStep_of_loading loading] at idle
    exact idle
  | fill =>
    have full : k.mayFill = false := by simp [Lane.mayFill, loading]
    rw [Lane.fill, full] at idle
    exact idle
  | audit =>
    rw [Lane.auditTick, if_neg (by simp [loading])] at idle
    exact idle
  | rise => exact idle
  | close => exact idle
  | fallEmpty empty => exact elsewhere empty (by decide)
  | fallExtracting extracting => exact elsewhere extracting (by decide)
  | fall source => exact departed source
  | openOut source => exact source.elim (fun e => elsewhere e (by decide)) fun e => elsewhere e (by decide)
  | extract source => exact departed source
  | resetOut resettable => rw [loading] at resettable; cases resettable
  | release live => exact elsewhere live (by decide)
  | clearAlarm => exact idle
  | retireTraining b awaited client =>
    have own := sane.client b (Transmitter.awaited_outstanding awaited)
    rw [client] at own
    exact elsewhere own (by decide)
  | retireLive b _ awaited client =>
    have own := sane.client b (Transmitter.awaited_outstanding awaited)
    rw [client] at own
    exact elsewhere own (by decide)
  | resend => cases idle
  | linkFault live => exact elsewhere live (by decide)
  | dropBurst _ other => exact absurd loading other

/-! ### Every command -/

/-- Each move of the part leaves the port in use: it ends with the arbiter's choice, or makes no job eligible. -/
theorem State.Moves.portInUse {c : Instr} {s t : State} (m : State.Moves c s t) (agree : s.Coherent) (h : s.PortInUse) :
    t.PortInUse := by
  have elsewhere : ∀ {i : Slot} {x : LaneState} {p : Prop}, (s.lane i).state = x → x ≠ .loading →
      (s.lane i).state = .loading → p := fun e other loading => absurd (e.symm.trans loading) other
  cases m with
  | same => exact h
  | reset => exact State.portInUse_of_jobless fun j => by simp [State.job, State.resetBlocks]
  | begins _ phase => exact State.portInUse_of_jobless (agree.store (by rw [phase]; decide)).1
  | completes phase => exact State.portInUse_of_jobless (agree.store (by rw [phase]; decide)).1
  | inserts => exact State.arbitrate_portInUse _
  | updates => exact State.arbitrate_portInUse _
  | retires => exact State.arbitrate_portInUse _
  | setting => exact h.of_lanes agree rfl (fun _ _ => id) rfl rfl
  | setAudit interval =>
    refine h.of_lanes agree rfl (fun i _ => ?_) rfl rfl
    rw [State.lane_mapLanes, (Lane.restartAudit_front ..).tx]
    exact id
  | turn i l event => exact h.setLane agree (event.idle (agree.lanes i)) rfl rfl rfl rfl
  | identifies i present _ unloaded =>
    simp only [State.identify, State.lane_setLane_self, State.setLane_setLane, State.setLane_master]
    exact h.setLane agree (fun loading => absurd loading unloaded) rfl rfl rfl rfl
  | unidentifies i l identifying => exact h.setLane (l := l) agree (elsewhere identifying (by decide)) rfl rfl rfl rfl
  | identified i l attempt =>
    exact h.setLane (l := l) agree (elsewhere (agree.fifo.attempting attempt) (by decide)) rfl rfl rfl rfl
  | masters => exact h.of_lanes agree rfl (fun _ _ => id) rfl rfl
  | loses i l cause loading departure =>
    obtain ⟨j, held⟩ := (agree.jobs.loading_iff i).1 loading
    have found : (s.setLane i l).jobOn i = some j :=
      State.jobOn_eq_some held fun k target => agree.jobs.one_job i k j target held
    rw [State.failJobOn, found]
    exact State.arbitrate_portInUse _
  | starts => exact State.arbitrate_portInUse _
  | aborts => exact State.arbitrate_portInUse _
  | retireJob => exact State.arbitrate_portInUse _
  | examines =>
    unfold State.examineRow
    split
    · split
      · exact State.portInUse_of_granted rfl
      · exact h
    · exact h
  | takes =>
    unfold State.takeRow
    split
    · split
      · exact State.portInUse_of_granted rfl
      · exact h
    · exact h
  | grants =>
    rcases s.completeGrant_cases with e | ⟨g, job, _, _, ⟨_, e⟩ | ⟨_, e⟩⟩ <;> rw [e]
    · exact h
    · exact State.arbitrate_portInUse _
    · exact State.arbitrate_portInUse _
  | freezes j =>
    rcases s.freezeExpired_cases j with e | ⟨u, _, _, e⟩ <;> rw [e]
    · exact h
    · exact State.arbitrate_portInUse _
  | samples j =>
    unfold State.sampleExpired
    split
    · next job hj =>
      split
      · exact h.setJob agree hj rfl id
      · exact h
    · exact h
  | noticed j job hj =>
    unfold Job.noticed
    split
    · exact h.setJob agree hj rfl id
    · refine h.of_kept agree rfl (fun _ _ => id) fun k x hk work => ?_
      rw [State.job_setJob] at hk
      split at hk
      · cases hk
      · exact ⟨x, hk, rfl, work⟩

/-- Fields of other blocks do not matter. -/
theorem State.PortInUse.of_same {s t : State} (h : s.PortInUse) (agree : s.Coherent) (same : State.SamePart s t) : t.PortInUse :=
  h.of_lanes agree same.grant (fun i _ => by rw [same.lane_eq]; exact id) same.jobs same.store

/-- A microsecond of time makes no job eligible. -/
theorem State.PortInUse.tick {s : State} (h : s.PortInUse) (agree : s.Coherent) : s.tick.PortInUse := by
  unfold State.tick
  split
  · exact h
  · refine h.of_kept agree rfl (fun i _ => ?_) fun j job hj work => ?_
    · rw [State.mapJobs_lane, State.lane_mapLanes]
      exact id
    · rw [State.job_mapJobs] at hj
      obtain ⟨before, hb, rfl⟩ := Option.map_eq_some_iff.1 hj
      exact ⟨before, hb, rfl, work⟩

/-- Settles O59: a command that can make a job eligible ends with the arbiter's choice, and the others leave jobs and transmitters as
they were for it. -/
theorem step_keepsPortInUse : Obligations.Step_KeepsPortInUse := by
  intro s t sound blocks h run
  have agree := blocks.coherent sound
  unfold step at run
  split at run
  · injection run with run
    exact run ▸ h.tick agree
  · next c rest _ =>
    obtain ⟨a, b, before, move, after⟩ := exec_steps c run
    have same : State.SamePart s a := ⟨before.store, before.settings, before.master, before.lanes, before.jobs, before.grant⟩
    have moved := agree.of_same same
    exact (move.portInUse moved (h.of_same agree same)).of_same (move.coherent moved) after

/-! ### The choice (06, R124 and R126) -/

/-- A grant of a job in VERIFY begins with its frame, and the verify segment advances (06, R124; 07, R166). -/
theorem State.beginGrant_verify {s : State} {j : JobNo} {job : Job} (hj : s.job j = some job) (verify : job.state = .verify) :
    s.beginGrant j =
      { s.setJob j (some { job with verifySegment := job.verifySegment + 1 }) with
        grant := some { job := j, frames := [.verify job.verifySegment], examined := 0, closed := false } } := by
  simp only [State.beginGrant, hj, verify]

/-- A grant of a job outside VERIFY leaves the job, and begins with its frame in WIPE (06, R124). -/
theorem State.beginGrant_other {s : State} {j : JobNo} {job : Job} (hj : s.job j = some job) (other : job.state ≠ .verify) :
    s.beginGrant j =
      { s with
        grant := some { job := j, frames := if job.state = .wipe then [.wipe] else [], examined := 0, closed := false } } := by
  unfold State.beginGrant
  rw [hj]
  simp only []
  split
  · next wipe => rw [if_pos wipe]
  · next verify => exact absurd verify other
  · next wipe _ => rw [if_neg wipe]

/-- The freeze class comes first (06, R126). -/
theorem State.arbitrate_freeze {s : State} {j : JobNo} (free : s.grant = none)
    (first : searchJobs s.freezePointer (fun j => s.eligible j && s.freezeClass j) = some j) :
    s.arbitrate = { s with freezePointer := j + 1 }.beginGrant j := by
  unfold State.arbitrate
  rw [if_neg (by simp [free]), first]

/-- The load class comes second (06, R126). -/
theorem State.arbitrate_load {s : State} {j : JobNo} (free : s.grant = none)
    (nobody : searchJobs s.freezePointer (fun j => s.eligible j && s.freezeClass j) = none)
    (first : searchJobs s.loadPointer (fun j => s.eligible j && !s.freezeClass j) = some j) :
    s.arbitrate = { s with loadPointer := j + 1 }.beginGrant j := by
  unfold State.arbitrate
  rw [if_neg (by simp [free]), nobody, first]

/-- Settles O47: eligibility by its parts; the first eligible job of the freeze class, or else of the load class, is granted with its
opening frames. -/
theorem arbiter_grantsFirstEligible : Obligations.Arbiter_GrantsFirstEligible := by
  intro s
  refine ⟨fun j => ?_, fun busy => if_pos busy, fun idle => ?_, fun k job free => ⟨fun hf frozen eligible before => ?_,
    fun noFreeze hl eligible before => ?_⟩⟩
  · simp only [State.eligible_iff, Job.hasWork_iff]
  · rcases s.arbitrate_cases with ⟨e, _⟩ | ⟨j, _, _, _, _, eligible, _⟩
    · exact e
    · rw [idle j] at eligible
      cases eligible
  · have first : searchJobs s.freezePointer (fun j => s.eligible j && s.freezeClass j) = some (s.freezePointer + k) := by
      refine searchJobs_eq_some (by simp [eligible, State.freezeClass_eq hf, frozen]) fun h hk => ?_
      rcases before h hk with e | e <;> simp [e]
    rw [State.arbitrate_freeze free first]
    split
    · next verify => exact State.beginGrant_verify hf verify
    · next other =>
      have freeze : job.state ≠ .wipe := fun wipe => by
        rw [wipe] at frozen
        cases frozen
      refine (State.beginGrant_other (s := { s with freezePointer := s.freezePointer + k + 1 }) hf other).trans ?_
      rw [if_neg freeze]
  · have loading : s.freezeClass (s.loadPointer + k) = false := (noFreeze _).resolve_left (by simp [eligible])
    have nobody : searchJobs s.freezePointer (fun j => s.eligible j && s.freezeClass j) = none := by
      refine searchJobs_eq_none fun j => ?_
      rcases noFreeze j with e | e <;> simp [e]
    have first : searchJobs s.loadPointer (fun j => s.eligible j && !s.freezeClass j) = some (s.loadPointer + k) :=
      searchJobs_eq_some (by simp [eligible, loading]) fun h hk => by simp [before h hk]
    have other : job.state ≠ .verify := fun verify => by
      rw [State.freezeClass_eq hl, verify] at loading
      cases loading
    rw [State.arbitrate_load free nobody first]
    exact State.beginGrant_other (s := { s with loadPointer := s.loadPointer + k + 1 }) hl other

end Sys2Proof.Machine
end

section
/-! SUPPORT. COPY_STATUS (06, R146; 07, R155 and R173): the entry that its message selects, and the length of a job's snapshot. -/

namespace Sys2Proof.Machine

/-! ### The selection -/

/-- A byte that is a slot's number names it (06, R146). -/
theorem slotOf_eq_some {b : Byte} {i : Slot} (h : b.toNat = i.val) : slotOf b = some i :=
  (dif_pos (h.trans_lt i.isLt)).trans (congrArg some (Fin.ext h))

/-- A byte that is a job's number names it (06, R146). -/
theorem jobOf_eq_some {b : Byte} {j : JobNo} (h : b.toNat = j.val) : jobOf b = some j :=
  (dif_pos (h.trans_lt j.isLt)).trans (congrArg some (Fin.ext h))

/-- An entry is found as a terminal one exactly when it targets the slot and has an outcome. -/
theorem targeted_iff (i : Slot) (e : Option Job) :
    targeted i e = true ↔ ∃ job, e = some job ∧ job.state.working = false ∧ job.slot = i := by
  rcases e with _ | job <;> simp [targeted]

section
variable {s : State} {m : List Byte}

/-- The selector JOB selects the entry of its number, if it is taken. -/
theorem State.selectJob_number {j : JobNo} (byNumber : byteAt m 8 = 1#8) (named : natAt m 9 = j.val) :
    s.selectJob m = .ok (if (s.job j).isSome then some j else none) := by
  unfold State.selectJob
  rw [if_pos byNumber, jobOf_eq_some named]

/-- The selector SLOT selects the non-terminal job on the slot, or else its lowest-numbered terminal one. -/
theorem State.selectJob_slot {i : Slot} (bySlot : byteAt m 8 = 2#8) (named : natAt m 9 = i.val) :
    s.selectJob m = .ok ((s.jobOn i).or (allJobs.find? fun j => targeted i (s.job j))) := by
  unfold State.selectJob
  rw [if_neg (by rw [bySlot]; decide), if_pos bySlot, slotOf_eq_some named]

/-- A selector or a number out of range selects nothing and is refused. -/
theorem State.selectJob_badRequest
    (h : (byteAt m 8 ≠ 1#8 ∧ byteAt m 8 ≠ 2#8) ∨ (byteAt m 8 = 1#8 ∧ 4 ≤ natAt m 9) ∨ (byteAt m 8 = 2#8 ∧ 16 ≤ natAt m 9)) :
    s.selectJob m = .error .badRequest := by
  unfold State.selectJob
  rcases h with ⟨notJob, notSlot⟩ | ⟨byNumber, above⟩ | ⟨bySlot, above⟩
  · rw [if_neg notJob, if_neg notSlot]
  · have out : jobOf (byteAt m 9) = none := dif_neg (Nat.not_lt.2 above)
    rw [if_pos byNumber, out]
  · have out : slotOf (byteAt m 9) = none := dif_neg (Nat.not_lt.2 above)
    rw [if_neg (by rw [bySlot]; decide), if_pos bySlot, out]

/-- Nothing is selected on a slot that no entry targets. -/
theorem State.selectJob_untargeted {i : Slot} (bySlot : byteAt m 8 = 2#8) (named : natAt m 9 = i.val)
    (untargeted : ∀ j job, s.job j = some job → job.slot ≠ i) : s.selectJob m = .ok none := by
  have working : s.jobOn i = none :=
    (State.jobOn_eq_none_iff s i).2 fun j ⟨job, hj, _, slot⟩ => untargeted j job hj slot
  have terminal : (allJobs.find? fun j => targeted i (s.job j)) = none := by
    refine List.find?_eq_none.2 fun j _ found => ?_
    obtain ⟨job, hj, _, slot⟩ := (targeted_iff i _).1 found
    exact untargeted j job hj slot
  rw [State.selectJob_slot bySlot named, working, terminal]
  rfl

/-- The non-terminal job on the slot comes first, and then the lowest-numbered terminal one. -/
theorem State.selectJob_found {i : Slot} (bySlot : byteAt m 8 = 2#8) (named : natAt m 9 = i.val) {j : JobNo} {job : Job}
    (hj : s.job j = some job) (slot : job.slot = i)
    (chosen : (job.state.working = true ∧ ∀ k, s.TargetedBy i k → k = j) ∨
      ((∀ k, ¬ s.TargetedBy i k) ∧ ∀ k < j, ∀ other, s.job k = some other → other.slot ≠ i)) :
    s.selectJob m = .ok (some j) := by
  rw [State.selectJob_slot bySlot named]
  rcases chosen with ⟨working, unique⟩ | ⟨untargeted, lowest⟩
  · rw [State.jobOn_eq_some ⟨job, hj, working, slot⟩ unique]
    rfl
  · have ended : job.state.working = false := by
      rw [← Bool.not_eq_true]
      exact fun working => untargeted j ⟨job, hj, working, slot⟩
    have first : (allJobs.find? fun j => targeted i (s.job j)) = some j := by
      refine allJobs_find?_eq_some ((targeted_iff i _).2 ⟨job, hj, ended, slot⟩) fun k hk => ?_
      rw [← Bool.not_eq_true, targeted_iff]
      rintro ⟨other, ho, _, same⟩
      exact lowest k hk other ho same
    rw [(State.jobOn_eq_none_iff s i).2 untargeted, first]
    rfl

/-- COPY_STATUS refuses a bad selection. -/
theorem State.decideCopyStatus_error {status : Status} (h : s.selectJob m = .error status) :
    s.decideCopyStatus m = s.refuse m status := by
  simp only [State.decideCopyStatus, h]

/-- COPY_STATUS refuses where no entry is selected. -/
theorem State.decideCopyStatus_none (h : s.selectJob m = .ok none) : s.decideCopyStatus m = s.refuse m .noJob := by
  simp only [State.decideCopyStatus, h]

/-- COPY_STATUS answers with the snapshot of the entry selected. -/
theorem State.decideCopyStatus_some {j : JobNo} {job : Job} (h : s.selectJob m = .ok (some j)) (hj : s.job j = some job) :
    s.decideCopyStatus m = s.respond m .ok (.job (job.snapshot j)) := by
  simp only [State.decideCopyStatus, h, hj]

end

/-! ### The snapshot -/

@[simp] theorem Policy.encode_length (p : Policy) : p.encode.length = 7 := by simp [Policy.encode]

@[simp] theorem evaluationField_length (e : Option Evaluation) : (evaluationField e).length = 9 := by
  cases e <;> simp [evaluationField]

/-- A job snapshot is 73 bytes long (10, R201). -/
theorem JobSnapshot.encode_length (j : JobSnapshot) : j.encode.length = 73 := by
  unfold JobSnapshot.encode
  simp only [List.length_append, toBytes_length, optionField_length, Policy.encode_length,
    evaluationField_length]

/-- The predicted freeze time as a snapshot reports it (07, R154 and R155). -/
theorem predictedTime_eq (n es : Nat) :
    predictedTime n es =
      if n = 0 then 0 else if es = 0 then 16777215 else min 16777215 ((n * 16 * 1024 + es - 1) / es) := by
  unfold predictedTime ceilDiv Config.unboundedTime
  rfl

/-- Settles O14: the selection by number and by slot, each answered with the snapshot of what it selects. -/
theorem copyStatus_answersSnapshot : Obligations.CopyStatus_AnswersSnapshot := by
  refine ⟨fun s m rest offered => ?_, fun j job => ⟨?_, JobSnapshot.encode_length _⟩⟩
  case refine_2 => rw [Job.snapshot, predictedTime_eq]
  have bad : ∀ h, s.Refuses .copyStatus m rest .badRequest := fun h =>
    offered.decides State.decideCopyStatus rfl
      (State.decideCopyStatus_error (State.selectJob_badRequest (s := { s with requests := rest }) h))
  have refused : ({ s with requests := rest } : State).selectJob m = .ok none → s.Refuses .copyStatus m rest .noJob :=
    fun e => offered.decides State.decideCopyStatus rfl (State.decideCopyStatus_none e)
  have answers : ∀ {j job}, s.job j = some job → ({ s with requests := rest } : State).selectJob m = .ok (some j) →
      exec .copyStatus s = .next (s.answered m rest .ok (.job (job.snapshot j))) := fun hj e =>
    offered.decides State.decideCopyStatus rfl (State.decideCopyStatus_some (s := { s with requests := rest }) e hj)
  refine ⟨fun notJob notSlot => bad (.inl ⟨notJob, notSlot⟩), fun byNumber above => bad (.inr (.inl ⟨byNumber, above⟩)),
    fun bySlot above => bad (.inr (.inr ⟨bySlot, above⟩)), fun byNumber j named => ⟨fun free => refused ?_, fun job hj => answers hj ?_⟩,
    fun bySlot i named => ⟨fun untargeted => refused (State.selectJob_untargeted bySlot named untargeted),
      fun j job hj slot chosen => answers hj (State.selectJob_found bySlot named hj slot chosen)⟩⟩
  · have free' : ({ s with requests := rest } : State).job j = none := free
    rw [State.selectJob_number byNumber named, free']
    rfl
  · have hj' : ({ s with requests := rest } : State).job j = some job := hj
    rw [State.selectJob_number byNumber named, hj']
    rfl

end Sys2Proof.Machine
end

section
/-! SUPPORT. The reads of a grant and the timers of a job (06, R127, R129, R131 and R137; 07, R151 to R153, R163 and R164): when each
acts, and the state it leaves. -/

namespace Sys2Proof.Machine

/-! ### The reads of a grant (06, R129, R131 and R137) -/

/-- The frame of a row: a WRITE with its encoding when it is in the profile, and else none (06, R129 and R137). -/
theorem rowFrame_eq (store : Store) (p : Profile) (row : Nat) :
    rowFrame store p row =
      if store.rowInProfile p row then some (.write row (((store.row row).map fun r => r.encode p).getD [])) else none := by
  unfold rowFrame Store.rowInProfile
  rcases store.row row with _ | r <;> rfl

section
variable {s : State} {g : Grant} {job : Job}

theorem State.grantJob_eq (hg : s.grant = some g) (hj : s.job g.job = some job) : s.grantJob = some (g, job) := by
  simp [State.grantJob, hg, hj]

/-- A sweep grant that goes on reads the row at the cursor (06, R129). -/
theorem State.examineRow_reads (hg : s.grant = some g) (hj : s.job g.job = some job) (may : g.maySweep s.store job = true) :
    s.examineRow =
      { s.setJob g.job (some (job.examined s.store)) with
        grant := some
          { g with
            examined := g.examined + 1
            frames := g.frames ++ (rowFrame s.store job.profile job.sweepCursor).toList } } := by
  unfold State.examineRow
  rw [State.grantJob_eq hg hj]
  exact if_pos may

/-- A grant that may not examine a row is left. -/
theorem State.examineRow_left (hg : s.grant = some g) (hj : s.job g.job = some job) (done : ¬ g.maySweep s.store job = true) :
    s.examineRow = s := by
  unfold State.examineRow
  rw [State.grantJob_eq hg hj]
  exact if_neg done

/-- A drain grant that may take a row takes it (06, R137). -/
theorem State.takeRow_takes (hg : s.grant = some g) (hj : s.job g.job = some job) {row : Nat} (may : g.mayDrain job = some row) :
    s.takeRow =
      { s.setJob g.job (some { job with dirty := job.dirty.erase row, drainCursor := row + 1 }) with
        grant := some { g with frames := g.frames ++ [(rowFrame s.store job.profile row).getD (.clear row)] } } := by
  simp only [State.takeRow, State.grantJob_eq hg hj, may]

/-- A grant that may take no row is left. -/
theorem State.takeRow_left (hg : s.grant = some g) (hj : s.job g.job = some job) (done : g.mayDrain job = none) : s.takeRow = s := by
  simp only [State.takeRow, State.grantJob_eq hg hj, done]

/-- The row a drain grant takes is the least of the set at or above the cursor (06, R137). -/
theorem Grant.mayDrain_eq_some {row : Nat} (draining : job.state = .drain ∨ job.state = .freeze) (opened : g.closed = false)
    (room : g.frames.length < 8) (ascending : job.dirty.Pairwise (· < ·)) (listed : row ∈ job.dirty)
    (above : job.drainCursor ≤ row) (least : ∀ other ∈ job.dirty, job.drainCursor ≤ other → row ≤ other) :
    g.mayDrain job = some row := by
  refine (if_pos ⟨draining, opened, room⟩).trans ?_
  rcases next : job.nextDirty with _ | first
  · exact absurd ((Job.nextDirty_eq_none job).1 next row listed) (Nat.not_lt.2 above)
  · obtain ⟨mem, cursor⟩ := Job.nextDirty_mem next
    exact congrArg some (Nat.le_antisymm (Job.nextDirty_least next ascending listed above) (least first mem cursor))

end

/-- Settles O40: each read of the grant in closed form, taken exactly when the grant may read. -/
theorem grant_readsRows : Obligations.Grant_ReadsRows := by
  intro s g job awake hg hj write progress maySweep mayDrain
  have examines : exec .sweepExamination s = .next s.examineRow := congrArg Host.Outcome.next (s.unlessReset_run _ awake)
  have takes : exec .drainRowTake s = .next s.takeRow := congrArg Host.Outcome.next (s.unlessReset_run _ awake)
  rw [examines, takes]
  refine ⟨fun may => ?_, fun done => ?_, fun row may ascending listed above least => ?_, fun done => ?_⟩ <;>
    refine congrArg Host.Outcome.next ?_
  · rw [State.examineRow_reads hg hj ((g.maySweep_iff s.store job).2 may), rowFrame_eq]
    split <;> rfl
  · exact State.examineRow_left hg hj ((g.maySweep_iff s.store job).not.2 done)
  · obtain ⟨draining, opened, room⟩ := may
    have once : job.dirty.Nodup := ascending.imp Nat.ne_of_lt
    rw [State.takeRow_takes hg hj (Grant.mayDrain_eq_some draining opened room ascending listed above least), rowFrame_eq,
      once.erase_eq_filter row]
    split <;> rfl
  · refine State.takeRow_left hg hj (Option.isNone_iff_eq_none.1 ((g.mayDrain_isNone_iff job).2 fun on => ?_))
    obtain ⟨draining, opened, room, row, listed, above⟩ := on
    rcases done with shut | below
    · exact shut ⟨draining, opened, room⟩
    · exact (Nat.not_lt.2 above) (below row listed)

/-! ### The timers of a job (07, R151 to R153, R163 and R164) -/

/-- Only the job's own grant is closed (06, R127). -/
theorem State.closeGrant_eq (s : State) (j : JobNo) :
    s.closeGrant j = { s with grant := s.grant.map fun g => if g.job = j then { g with closed := true } else g } := by
  unfold State.closeGrant
  rcases hg : s.grant with _ | g
  · exact congrArg (fun grant => ({ s with grant } : State)) hg
  · simp only [Option.map_some]
    split
    · rfl
    · exact congrArg (fun grant => ({ s with grant } : State)) hg

section
variable {s : State} {j : JobNo} {job : Job}

/-- The first two expiries return the job to DRAIN (07, R163). -/
theorem State.freezeExpired_thaws (hj : s.job j = some job) (due : job.state.frozen = true ∧ job.freezeTimer = some 0)
    (few : job.freezeAttempts < 2) :
    s.freezeExpired j = (((s.setJob j (some job.thaw)).closeGrant j).endOfWork j).arbitrate := by
  simp only [State.freezeExpired, hj, Timer.ranOut_iff]
  exact (if_pos due).trans (if_pos (Nat.succ_lt_succ few))

/-- The third expiry fails the job (07, R164). -/
theorem State.freezeExpired_fails (hj : s.job j = some job) (due : job.state.frozen = true ∧ job.freezeTimer = some 0)
    (last : job.freezeAttempts = 2) :
    s.freezeExpired j = ((s.setJob j (some { job with freezeAttempts := 3 })).endJob j (.failed .freezeExhausted)).arbitrate := by
  simp only [State.freezeExpired, hj, Timer.ranOut_iff, last]
  exact (if_pos due).trans (if_neg (by decide))

/-- A freeze timer that is not due has no expiry (log 2). -/
theorem State.freezeExpired_early (hj : s.job j = some job) (early : ¬ (job.state.frozen = true ∧ job.freezeTimer = some 0)) :
    s.freezeExpired j = s := by
  simp only [State.freezeExpired, hj, Timer.ranOut_iff]
  exact if_neg early

/-- The end of a job whose entry has just changed, in closed form (06, R142). -/
theorem State.setJob_endJob_eq (s : State) (j : JobNo) (last : Job) (outcome : JobState) :
    (s.setJob j (some last)).endJob j outcome =
      { s with
        jobs := s.jobs.set j (some (last.ended outcome))
        grant := if s.granted j then none else s.grant
        lanes := s.lanes.set last.slot ((s.lane last.slot).jobEnded outcome s.settings.interval) } := by
  have once : (s.setJob j (some last)).jobs.set j (some (last.ended outcome)) = s.jobs.set j (some (last.ended outcome)) := by
    simp [State.setJob]
  have ended := State.endJob_eq (State.job_setJob_self s j (some last)) outcome
  rw [once] at ended
  exact ended

end

/-- A frozen state is FREEZE or VERIFY (07, R160). -/
theorem JobState.frozen_iff (x : JobState) : x.frozen = true ↔ x = .freeze ∨ x = .verify := by
  cases x <;> simp [JobState.frozen]

/-- Settles O42: the freeze timer's expiry by the count of those before it, and the sample timer's by the figures of its period. -/
theorem jobTimers_expire : Obligations.JobTimers_Expire := by
  intro s j job awake hj lapsed frozen filter
  have freezes : exec (.freezeTimerExpiry j) s = .next (s.freezeExpired j) :=
    congrArg Host.Outcome.next (s.unlessReset_run _ awake)
  have samples : exec (.sampleTimerExpiry j) s = .next (s.sampleExpired j) :=
    congrArg Host.Outcome.next (s.unlessReset_run _ awake)
  have due : frozen ↔ job.state.frozen = true ∧ job.freezeTimer = some 0 := by rw [JobState.frozen_iff]
  rw [freezes, samples]
  refine ⟨fun on few => ?_, fun on last loading => ?_, fun off => ?_, fun ran => ?_, fun early => ?_⟩ <;>
    refine congrArg Host.Outcome.next ?_
  · rw [State.freezeExpired_thaws hj (due.1 on) few, State.closeGrant_eq]
    rfl
  · rw [State.freezeExpired_fails hj (due.1 on) last, State.setJob_endJob_eq, Lane.jobEnded_loading loading (by simp)]
  · exact State.freezeExpired_early hj (due.not.1 off)
  · simp only [State.sampleExpired, hj, (Timer.ranOut_iff _).2 ran, Job.sample, nextEstimate_eq, max_def_lt,
      min_comm job.slowest, min_def_lt job.sends]
    rfl
  · have still : ¬ Timer.ranOut job.sampleTimer = true := (Timer.ranOut_iff _).not.2 early
    simp only [State.sampleExpired, hj, if_neg still]

end Sys2Proof.Machine
end

section
/-! SUPPORT. The end of the sweep or of a drain pass, and a retired burst reported to its job (06, R128, R130, R138 and R139; 07, R150,
R156 to R162 and R166 to R169): what each evaluation and each verify round makes of the job and its lane. -/

namespace Sys2Proof.Machine

section
variable {s : State} {j : JobNo} {job : Job}

/-! ### The end of a job with nothing of it in progress -/

/-- A job that has just changed completes: its lane goes LIVE (05, R114; 07, R171). -/
theorem State.setJob_endJob_completed {last : Job} (free : s.granted j = false) (loading : (s.lane last.slot).state = .loading) :
    (s.setJob j (some last)).endJob j .completed =
      { s with
        jobs := s.jobs.set j (some (last.ended .completed))
        lanes := s.lanes.set last.slot
          { s.lane last.slot with state := .live, mark := true, live := Live.start s.settings.interval } } := by
  rw [State.setJob_endJob_eq, Lane.jobEnded_live loading, free]
  rfl

/-- A job that has just changed fails: its lane goes to READY (03, R55; 06, R142). -/
theorem State.setJob_endJob_failed {last : Job} (free : s.granted j = false) (loading : (s.lane last.slot).state = .loading)
    (cause : JobCause) :
    (s.setJob j (some last)).endJob j (.failed cause) =
      { s with
        jobs := s.jobs.set j (some (last.ended (.failed cause)))
        lanes := s.lanes.set last.slot ((s.lane last.slot).moved .ready (s.lane last.slot).cause) } := by
  rw [State.setJob_endJob_eq, Lane.jobEnded_loading loading (by simp), free]
  rfl

/-! ### Pass-end evaluation (07, R156 to R160 and R162) -/

/-- The sweep or a drain pass with no row left, no grant and no burst is evaluated (06, R130 and R138). -/
theorem State.endOfWork_evaluates (hj : s.job j = some job) (free : s.granted j = false)
    (released : (s.lane job.slot).tx.outstanding = none)
    (finished : (job.state = .sweep ∧ job.sweepCursor = s.store.size) ∨ (job.state = .drain ∧ ∀ row ∈ job.dirty, row < job.drainCursor)) :
    s.endOfWork j = s.evaluate j job := by
  have rests : ¬ (s.granted j || s.burstOut job) = true := by simp [free, State.burstOut, released]
  unfold State.endOfWork
  rw [hj]
  refine (if_neg rests).trans ?_
  rcases finished with ⟨sweep, swept⟩ | ⟨drain, drained⟩
  · simp only [sweep]
    exact if_pos swept.ge
  · simp only [drain]
    exact if_pos ((Job.nextDirty_eq_none job).2 drained)

/-- The stall count and the previous count after the sweep, where both stay, or after a drain pass (07, R157). -/
theorem Job.countStall_eq (unfrozen : job.state = .sweep ∨ job.state = .drain) :
    job.countStall =
      { job with
        stall := if job.state = .sweep then job.stall
          else match job.previous with
            | some p => if p ≤ job.dirty.length then min job.policy.stallLimit (job.stall + 1) else 0
            | none => 0
        previous := if job.state = .sweep then job.previous else some job.dirty.length } := by
  rcases unfrozen with sweep | drain
  · have kept : job.countStall = job := by
      unfold Job.countStall
      rw [sweep]
    rw [if_pos sweep, if_pos sweep]
    exact kept
  · have other : job.state ≠ .sweep := by simp [drain]
    rw [if_neg other, if_neg other]
    unfold Job.countStall
    split
    · rfl
    · next elsewhere => exact absurd drain elsewhere

/-- The entry into FREEZE with its drain (07, R160 and R162): with nothing dirty it goes on to VERIFY, or cuts over. -/
theorem State.freeze_eq (free : s.granted j = false) (loading : (s.lane job.slot).state = .loading) :
    s.freeze j job =
      if job.dirty.length = 0 then
        if job.policy.verify then
          s.setJob j (some { job.enterFreeze with state := .verify, verifySegment := 0, answered := 0, mismatched := [] })
        else
          { s with
            jobs := s.jobs.set j (some (job.enterFreeze.ended .completed))
            lanes := s.lanes.set job.slot
              { s.lane job.slot with state := .live, mark := true, live := Live.start s.settings.interval } }
      else s.setJob j (some job.enterFreeze) := by
  simp only [State.freeze, State.freezeDrained, List.length_eq_zero_iff, State.setJob_setJob]
  rw [State.setJob_endJob_completed (last := job.enterFreeze) free loading]
  rfl

/-- A predicted time within the budget freezes the job (07, R156). -/
theorem State.evaluate_predicted (short : predictedTime job.dirty.length job.es ≤ job.policy.budget) :
    s.evaluate j job =
      s.freeze j (job.record .freezePredicted job.dirty.length (predictedTime job.dirty.length job.es)) :=
  if_pos short

/-- A late pass at neither limit is followed by the next (07, R159; 06, R136). -/
theorem State.evaluate_next {k : Job} (late : job.policy.budget < predictedTime job.dirty.length job.es) (counted : job.countStall = k)
    (inside : ¬ (k.stall = k.policy.stallLimit ∨ k.pass = k.policy.passLimit)) :
    s.evaluate j job =
      s.setJob j (some
        ((k.record .nextPass job.dirty.length (predictedTime job.dirty.length job.es)).startPass (k.pass + 1))) := by
  subst counted
  exact (if_neg (Nat.not_le.2 late)).trans (if_neg inside)

/-- A late pass at a limit takes the stall action FORCE (07, R158). -/
theorem State.evaluate_force {k : Job} (late : job.policy.budget < predictedTime job.dirty.length job.es) (counted : job.countStall = k)
    (limit : k.stall = k.policy.stallLimit ∨ k.pass = k.policy.passLimit) (force : k.policy.stallAction = .force) :
    s.evaluate j job =
      s.freeze j (k.record .freezeForced job.dirty.length (predictedTime job.dirty.length job.es)) := by
  subst counted
  refine ((if_neg (Nat.not_le.2 late)).trans (if_pos limit)).trans ?_
  rw [force]

/-- A late pass at a limit takes the stall action ABANDON (07, R158). -/
theorem State.evaluate_abandon {k : Job} (late : job.policy.budget < predictedTime job.dirty.length job.es)
    (counted : job.countStall = k) (limit : k.stall = k.policy.stallLimit ∨ k.pass = k.policy.passLimit)
    (abandon : k.policy.stallAction = .abandon) :
    s.evaluate j job =
      (s.setJob j (some (k.record .abandoned job.dirty.length (predictedTime job.dirty.length job.es)))).endJob j
        (.failed .notConverging) := by
  subst counted
  refine ((if_neg (Nat.not_le.2 late)).trans (if_pos limit)).trans ?_
  rw [abandon]

/-! ### A retired burst reported (06, R128 and R139; 07, R150) -/

/-- The WIPE burst starts the sweep (06, R128). -/
theorem State.reportRetired_wipe (hj : s.job j = some job) (wipe : job.state = .wipe) (frames : List Frame) (digest : Option Word32) :
    s.reportRetired j frames digest = s.setJob j (some (job.countSends frames).startSweep) := by
  simp only [State.reportRetired, hj, Job.countSends, wipe]

/-- In SWEEP, DRAIN and FREEZE the sends are counted, and the work may end (06, R139). -/
theorem State.reportRetired_sends (hj : s.job j = some job) (sending : job.state = .sweep ∨ job.state = .drain ∨ job.state = .freeze)
    (frames : List Frame) (digest : Option Word32) :
    s.reportRetired j frames digest = (s.setJob j (some (job.countSends frames))).endOfWork j := by
  rcases sending with e | e | e <;> simp only [State.reportRetired, hj, Job.countSends, e]

/-- In VERIFY the answer's digest is compared (07, R167). -/
theorem State.reportRetired_verify (hj : s.job j = some job) (verify : job.state = .verify) (segment : Nat) (digest : Word32) :
    s.reportRetired j [.verify segment] (some digest) =
      s.verifyAnswer j (job.countSends [.verify segment]) segment digest := by
  simp only [State.reportRetired, hj, Job.countSends, verify, List.getLast?_singleton]

/-- A terminal job is told nothing (06, R139). -/
theorem State.reportRetired_terminal (hj : s.job j = some job) (terminal : job.state.working = false) (frames : List Frame)
    (digest : Option Word32) : s.reportRetired j frames digest = s := by
  unfold State.reportRetired
  rw [hj]
  simp only [Job.countSends]
  split <;> simp_all [JobState.working]

/-! ### Verify rounds (07, R166 to R169) -/

/-- An answer within the round, or its last one. -/
theorem State.verifyAnswer_eq (s : State) (j : JobNo) (job : Job) (segment : Nat) (digest : Word32) {mismatched : List Nat}
    (compared : (if digest = s.store.digest job.profile segment then job.mismatched else dirtyInsert segment job.mismatched) =
      mismatched) :
    s.verifyAnswer j job segment digest =
      if job.answered + 1 = s.store.size / 4096 then s.endRound j { job with answered := job.answered + 1, mismatched }
      else s.setJob j (some { job with answered := job.answered + 1, mismatched }) := by
  subst compared
  rfl

/-- A round without a mismatch completes the job (07, R168). -/
theorem State.endRound_passes (equal : job.mismatched = []) : s.endRound j job = (s.setJob j (some job)).endJob j .completed :=
  if_pos equal

/-- A third failed round fails the job (07, R169). -/
theorem State.endRound_fails (differs : job.mismatched ≠ []) (last : 2 ≤ job.roundsFailed) :
    s.endRound j job =
      (s.setJob j (some { job with roundsFailed := job.roundsFailed + 1 })).endJob j (.failed .verifyExhausted) :=
  (if_neg differs).trans (if_neg (Nat.not_lt.2 (Nat.succ_le_succ last)))

/-- The entry into FREEZE leaves a running freeze timer (07, R160 and R169). -/
theorem Job.enterFreeze_running (runs : job.freezeTimer.isSome = true) :
    job.enterFreeze = { job with state := .freeze, drainCursor := 0, mark := true } := by
  obtain ⟨left, timer⟩ := Option.isSome_iff_exists.1 runs
  simp only [Job.enterFreeze, timer, Option.getD_some]

/-- A failed round returns to FREEZE with the rows of the differing segments (07, R169). -/
theorem State.endRound_again (differs : job.mismatched ≠ []) (few : job.roundsFailed < 2) :
    s.endRound j job =
      s.setJob j (some
        { ({ job with roundsFailed := job.roundsFailed + 1 } : Job).startRound.enterFreeze with
          dirty := job.mismatched.foldr dirtySegment job.dirty }) :=
  (if_neg differs).trans (if_pos (Nat.succ_lt_succ few))

end

/-- The rows that a failed round makes dirty: those that were, and those of the differing segments (07, R169). -/
theorem mem_redirty (segments dirty : List Nat) (row : Nat) :
    row ∈ segments.foldr dirtySegment dirty ↔ row ∈ dirty ∨ row / 4096 ∈ segments := by
  induction segments with
  | nil => simp
  | cons segment segments ih =>
    rw [List.foldr_cons, mem_dirtySegment, ih, List.mem_cons]
    exact or_left_comm

/-! ### The statements -/

/-- Settles O44: the evaluation by its predicted time, its limits and its stall action, and a freeze by what is left to drain. -/
theorem passEnd_evaluates : Obligations.PassEnd_Evaluates := by
  intro s j job hj free released loading finished n t stall previous atLimit l set frozen froze
  have unfrozen : job.state = .sweep ∨ job.state = .drain := finished.imp And.left And.left
  have counted : job.countStall = { job with stall, previous } := (Job.countStall_eq unfrozen).trans rfl
  rw [State.endOfWork_evaluates hj free released finished]
  refine ⟨fun short => ?_, fun late limit force => ?_, fun late limit abandon => ?_, fun late inside => ?_⟩
  · rw [State.evaluate_predicted short]
    exact State.freeze_eq (job := job.record .freezePredicted n t) free loading
  · rw [State.evaluate_force late counted limit force]
    exact State.freeze_eq (job := ({ job with stall, previous } : Job).record .freezeForced n t) free loading
  · rw [State.evaluate_abandon late counted limit abandon]
    exact State.setJob_endJob_failed (last := ({ job with stall, previous } : Job).record .abandoned n t) free loading _
  · exact State.evaluate_next late counted inside

/-- Settles O46: the report by the job's state, and in VERIFY by the count of answers and the mismatches of the round. -/
theorem burstReport_movesJob : Obligations.BurstReport_MovesJob := by
  intro s j job frames digest hj set counted
  have tally : counted = job.countSends frames := by
    refine congrArg (fun n => { job with sends := min 65535 (job.sends + n) }) ?_
    rw [List.countP_eq_length_filter]
    refine congrArg (fun p => (frames.filter p).length) (funext fun f => ?_)
    cases f <;> rfl
  refine ⟨fun wipe only => ?_, fun sending => ?_, ?_,
    fun terminal => State.reportRetired_terminal hj terminal frames digest⟩
  · rw [State.reportRetired_wipe hj wipe, only]
    rfl
  · rw [tally]
    exact State.reportRetired_sends hj sending frames digest
  · intro segment d verify only answer mismatched answered told
    have report : s.reportRetired j frames digest =
        if answered = s.store.size / 4096 then s.endRound j told else s.setJob j (some told) := by
      rw [only, answer, State.reportRetired_verify hj verify]
      exact State.verifyAnswer_eq s j (job.countSends [.verify segment]) segment d rfl
    refine ⟨fun more => report.trans (if_neg more), fun last loading free => ?_⟩
    rw [report, if_pos last]
    refine ⟨fun equal => ?_, fun differs third => ?_, fun differs few runs ascending => ?_⟩
    · exact (State.endRound_passes equal).trans (State.setJob_endJob_completed (last := told) free loading)
    · exact (State.endRound_fails (job := told) differs third).trans
        (State.setJob_endJob_failed (last := { told with roundsFailed := job.roundsFailed + 1 }) free loading _)
    · refine ⟨mismatched.foldr dirtySegment job.dirty, (State.endRound_again (job := told) differs few).trans ?_,
        Job.redirty_ascending mismatched ascending, mem_redirty mismatched job.dirty⟩
      rw [Job.enterFreeze_running (job := ({ told with roundsFailed := job.roundsFailed + 1 } : Job).startRound) runs]
      rfl

end Sys2Proof.Machine
end

section
/-! SUPPORT. The predicted freeze time (07, R154): its equation in each of the three cases, and the rounded quotient as the least
count of microseconds that suffices. -/

namespace Sys2Proof.Machine

/-- The rounded quotient is at most `t` exactly when `t` times the divisor reaches the dividend. -/
theorem ceilDiv_le_iff {a b : Nat} (pos : 0 < b) (t : Nat) : ceilDiv a b ≤ t ↔ a ≤ t * b := by
  rw [ceilDiv, Nat.div_le_iff_le_mul pos]
  omega

/-- The rounded quotient is the least `t` whose product with the divisor reaches the dividend. -/
theorem ceilDiv_eq_of_least {a b t : Nat} (pos : 0 < b) (enough : a ≤ t * b) (least : ∀ u, a ≤ u * b → t ≤ u) :
    ceilDiv a b = t :=
  Nat.le_antisymm ((ceilDiv_le_iff pos t).2 enough) (least _ ((ceilDiv_le_iff pos _).1 (Nat.le_refl _)))

/-- Nothing to send takes no time, whatever the estimate (07, R154). -/
@[simp] theorem predictedTime_zero (es : Nat) : predictedTime 0 es = 0 := if_pos rfl

/-- Rows to send and an estimate of 0 predict the unbounded time (07, R154). -/
theorem predictedTime_noEstimate {n : Nat} (dirty : 0 < n) : predictedTime n 0 = Config.unboundedTime :=
  (if_neg (Nat.ne_of_gt dirty)).trans (if_pos rfl)

/-- Rows to send at a rate above 0 predict the rounded quotient, up to the unbounded time (07, R154). -/
theorem predictedTime_pos {n es : Nat} (dirty : 0 < n) (sends : 0 < es) :
    predictedTime n es = min Config.unboundedTime (ceilDiv (n * 16 * 1024) es) :=
  (if_neg (Nat.ne_of_gt dirty)).trans (if_neg (Nat.ne_of_gt sends))

/-- Settles O43: the three cases of the prediction, the last by the rounded quotient as the least time that suffices. -/
theorem predictedTime_formula : Obligations.PredictedTime_Formula := by
  intro n es
  refine ⟨?_, ?_, fun t dirty sends enough least => ?_⟩
  · rintro rfl
    exact predictedTime_zero es
  · rintro dirty rfl
    exact predictedTime_noEstimate dirty
  · rw [predictedTime_pos dirty sends, ceilDiv_eq_of_least sends enough least, Config.unboundedTime]
    split <;> omega

end Sys2Proof.Machine
end

section
/-! SUPPORT. The port words and the waiting of commands (08, R174 to R177, R181 and R188): the form of every command, which says
what holds it back, what a write and a read of each port word make of the queues, and the layout of an outgoing message. -/

namespace Sys2Proof.Machine

/-! ### The form of every command -/

/-- The command is the handler's taking of a request of a kind that it takes (08, R177; log 4). -/
def TakesRequest (c : Instr) : Prop := ∃ decided, ∀ s, exec c s = .next (s.takeRequest c.takesKind decided)

/-- The command acts outside reset alone (08, R188). -/
def HeldInReset (c : Instr) : Prop := ∃ f, ∀ s, exec c s = .next (s.unlessReset f)

/-- A command is a request command, or takes no kind of request and is a reset event, a read of the response port, or held in
reset. -/
theorem exec_form (c : Instr) :
    TakesRequest c ∨
      ((∀ b, c.takesKind b = false) ∧
        (c = .powerOn ∨ c = .resetPinAssert ∨ c = .resetEnd ∨ (∃ n, c = .responsePortRead n) ∨ HeldInReset c)) := by
  cases c
  case insert | update | retire | find | readRow | storeInit | storeStats | laneStatus | laneReset | laneRelease
      | laneClearAlarm | copyStart | copyAbort | copyStatus | setScan | setLaneAlarm | setAudit | identify | softReset
      | unknownRequestKind => exact .inl ⟨_, fun _ => rfl⟩
  all_goals refine .inr ⟨fun _ => rfl, ?_⟩
  case powerOn => exact .inl rfl
  case resetPinAssert => exact .inr (.inl rfl)
  case resetEnd => exact .inr (.inr (.inl rfl))
  case responsePortRead n => exact .inr (.inr (.inr (.inl ⟨n, rfl⟩)))
  case portWordWriteDiscarded =>
    exact .inr (.inr (.inr (.inr ⟨id, fun _ => congrArg Host.Outcome.next (ite_self _).symm⟩)))
  all_goals exact .inr (.inr (.inr (.inr ⟨_, fun _ => rfl⟩)))

/-- In reset nothing but reset events and reads acts (08, R188; 09, R196). -/
theorem exec_held {c : Instr} {s : State} (held : s.inReset = true) (powerOn : c ≠ .powerOn) (pin : c ≠ .resetPinAssert)
    (ends : c ≠ .resetEnd) (read : ∀ n, c ≠ .responsePortRead n) : exec c s = .next s := by
  rcases exec_form c with ⟨decided, run⟩ | ⟨_, e | e | e | ⟨n, e⟩ | ⟨f, run⟩⟩
  · rw [run, State.takeRequest_held s _ decided held]
  · exact absurd e powerOn
  · exact absurd e pin
  · exact absurd e ends
  · exact absurd e (read n)
  · rw [run, State.unlessReset_held s f held]

/-- Nothing is taken without a free response entry, from an empty queue, or of another kind (08, R177). -/
theorem State.takeRequest_waits {s : State} {isKind : Byte → Bool} (decided : State → List Byte → State)
    (waits : 256 ≤ s.responses.length + s.reserved ∨ s.requests = [] ∨
      ∀ m ∈ s.requests.head?, isKind (byteAt m 2) = false) : s.takeRequest isKind decided = s := by
  rcases s.takeRequest_cases isKind decided with e | ⟨m, rest, ⟨_, queue, room, _⟩, kind, _⟩
  · exact e
  · rcases waits with full | empty | other
    · omega
    · rw [queue] at empty
      cases empty
    · rw [queue] at other
      exact (Bool.false_ne_true ((other m rfl).symm.trans kind)).elim

/-! ### The bytes of a transfer -/

/-- A transfer from zero bytes is of zero bytes, whatever its length. -/
theorem transfer_zeros (n k : Nat) : transfer n (List.replicate k 0) = List.replicate n 0 := by
  simp [transfer, List.replicate_append_replicate, List.take_replicate]

/-- A transfer from bytes that fit into it is those bytes and zero bytes after them. -/
theorem transfer_of_fits {n : Nat} {source : List Byte} (fits : source.length ≤ n) :
    transfer n source = source ++ List.replicate (n - source.length) 0 := by
  rw [transfer, List.take_append, List.take_of_length_le fits, List.take_replicate, Nat.min_eq_left (Nat.sub_le _ _)]

/-- A transfer from NONE is of zero bytes. -/
theorem transfer_noneMessage (n : Nat) : transfer n noneMessage = List.replicate n 0 := transfer_zeros n 128

/-- In reset, or with no message to give, a read gives NONE and removes nothing (08, R181 and R188). -/
theorem State.readResponse_none {s : State} (silent : s.inReset = true ∨ s.responses = []) (n : Nat) :
    s.readResponse n = { s with readData := List.replicate n 0 } := by
  have none : s.responseHead = noneMessage := by
    unfold State.responseHead
    split
    · next awake queue => simp [awake, queue] at silent
    · rfl
  rw [State.readResponse, none, transfer_noneMessage]
  rcases silent with held | empty
  · simp [held]
  · simp [empty]

/-- In reset the credit is 0 (08, R188). -/
theorem State.creditWordRead_held {s : State} (held : s.inReset = true) (n : Nat) :
    s.creditWordRead n = List.replicate n 0 := by
  have zero : s.credit = 0 := if_pos held
  rw [State.creditWordRead, zero]
  exact transfer_zeros n 4

/-- Settles O4: by the form of the command, and by what the handler requires of the request it takes. -/
theorem commands_waitInResetAndForRoom : Obligations.Commands_WaitInResetAndForRoom := by
  refine ⟨fun s held => ⟨fun c powerOn pin ends read => exec_held held powerOn pin ends read,
    fun n => congrArg Host.Outcome.next (State.readResponse_none (.inl held) n), State.creditWordRead_held held⟩,
    fun c s ⟨b, takes⟩ waits => ?_⟩
  rcases exec_form c with ⟨decided, run⟩ | ⟨none, _⟩
  · rw [run, State.takeRequest_waits decided waits]
  · exact (Bool.false_ne_true ((none b).symm.trans takes)).elim

/-! ### Writes to the request port and the credit -/

/-- Outside reset the credit is what the request queue has left of its 64 entries (08, R174). -/
theorem State.credit_run {s : State} (awake : s.inReset = false) : s.credit = 64 - s.requests.length := by
  simp [State.credit, awake, Config.requestCapacity]

/-- A write of the request port, outside reset (08, R175 and R176). -/
theorem execRequestPortWrite_run {s : State} (awake : s.inReset = false) (bytes : List Byte) :
    exec (.requestPortWrite bytes) s =
      .next (if bytes.length = 128 ∧ s.requests.length < 64 then { s with requests := s.requests ++ [bytes] }
        else { s with overrun := true }) :=
  congrArg Host.Outcome.next (State.unlessReset_run s _ awake)

/-- A number of one byte laid out in four. -/
theorem toBytes_four {v : Nat} (small : v < 256) : toBytes 4 v = [0, 0, 0, BitVec.ofNat 8 v] := by
  simp [toBytes, Nat.div_eq_of_lt small]

/-- Settles O7: the write by its length and the room it finds, the credit by the entries that the queue leaves. -/
theorem portWrites_placeOrDiscard : Obligations.PortWrites_PlaceOrDiscard := by
  intro s bytes awake
  refine ⟨fun whole room => ⟨?_, ?_⟩, fun discarded => ?_, fun _ => rfl, fun fits => ⟨?_, fun n => ?_⟩⟩
  · rw [execRequestPortWrite_run awake, if_pos ⟨whole, room⟩]
  · have after : ({ s with requests := s.requests ++ [bytes] } : State).credit = 64 - (s.requests ++ [bytes]).length :=
      State.credit_run awake
    rw [after, State.credit_run awake, List.length_append, List.length_singleton]
    omega
  · rw [execRequestPortWrite_run awake, if_neg (by omega)]
  · rw [State.credit_run awake]
    omega
  · have small : s.credit < 256 := by
      rw [State.credit_run awake]
      omega
    rw [State.creditWordRead, transfer, toBytes_four small]

/-! ### Reads of the response port -/

/-- A read gives the head message, and one of its whole length removes it (08, R181). -/
theorem State.readResponse_head {s : State} (awake : s.inReset = false) {head : OutMessage} {rest : List OutMessage}
    (queue : s.responses = head :: rest) (n : Nat) :
    s.readResponse n =
      { s with readData := transfer n head.encode, responses := if n = 128 then rest else head :: rest } := by
  have first : s.responseHead = head.encode := by
    unfold State.responseHead
    rw [awake, queue]
  simp [State.readResponse, first, awake, queue, Config.messageBytes]

/-! ### The layout of a message (10, section 10.2) -/

/-- The record field is 73 bytes long (10, section 10.2.1). -/
@[simp] theorem Record.field_length (r : Record) : r.field.length = 73 := by simp [Record.field]

@[simp] theorem factsField_length (facts : Option BoardFacts) : (factsField facts).length = 12 := by
  cases facts <;> simp [factsField]

@[simp] theorem burstField_length (b : Option BurstSnapshot) : (burstField b).length = 4 := by
  cases b <;> simp [burstField]

@[simp] theorem cursorField_length (cursor : Option (Nat × Nat)) : (cursorField cursor).length = 4 := by
  cases cursor <;> simp [cursorField]

/-- A lane snapshot is 43 bytes long (10, R201). -/
@[simp] theorem LaneSnapshot.encode_length (l : LaneSnapshot) : l.encode.length = 43 := by
  unfold LaneSnapshot.encode
  simp only [List.length_append, toBytes_length, List.length_cons, List.length_nil, factsField_length, burstField_length,
    cursorField_length]

/-- A body fits into the 120 bytes behind the header; the longest is a record's (10, R200). -/
theorem Payload.encode_length_le (p : Payload) : p.encode.length ≤ 120 := by
  cases p
  case rowContent row record => cases record <;> simp [Payload.encode]
  all_goals simp [Payload.encode, JobSnapshot.encode_length]

theorem MessageKind.code_lt (k : MessageKind) : k.code < 256 := by cases k <;> decide

theorem Status.code_lt (c : Status) : c.code < 256 := by cases c <;> decide

/-- The eight bytes before a message's body. -/
def OutMessage.header (m : OutMessage) : List Byte :=
  toBytes 2 m.tag.toNat ++ toBytes 1 m.kind.code ++ [m.requestKind] ++ toBytes 1 m.status.code ++ [boolByte m.overrun]
    ++ List.replicate 2 0

@[simp] theorem OutMessage.header_length (m : OutMessage) : m.header.length = 8 := by simp [OutMessage.header]

/-- A message is its header, its body, and zero bytes up to its 128th. -/
theorem OutMessage.encode_eq (m : OutMessage) :
    m.encode = m.header ++ (m.body.encode ++ List.replicate (120 - m.body.encode.length) 0) := by
  calc
    m.encode = (m.header ++ m.body.encode ++ List.replicate 120 0).take 128 := rfl
    _ = (m.header ++ (m.body.encode ++ List.replicate 120 0)).take (m.header.length + 120) := by
      rw [List.append_assoc, m.header_length]
    _ = m.header ++ transfer 120 m.body.encode := List.take_length_add_append 120
    _ = _ := by rw [transfer_of_fits m.body.encode_length_le]

/-- Settles O8: the read by the head it finds, the layout by the length of the body. -/
theorem responseRead_returnsHeadMessage : Obligations.ResponseRead_ReturnsHeadMessage := by
  refine ⟨fun s n awake => ⟨fun empty => congrArg Host.Outcome.next (State.readResponse_none (.inr empty) n),
    fun head rest queue => congrArg Host.Outcome.next (State.readResponse_head awake queue n)⟩, fun m => ?_⟩
  have fits := m.body.encode_length_le
  rw [m.encode_eq]
  refine ⟨?length, ?tag, ?kind, rfl, ?status, rfl, rfl, rfl, fits, List.drop_left' m.header_length⟩
  case length =>
    simp only [List.length_append, OutMessage.header_length, List.length_replicate]
    omega
  case tag => exact (ofBytes_toBytes 2 _).trans (Nat.mod_eq_of_lt m.tag.isLt)
  case kind => exact Nat.mod_eq_of_lt m.kind.code_lt
  case status => exact Nat.mod_eq_of_lt m.status.code_lt

end Sys2Proof.Machine
end

section
/-! SUPPORT. The interrupt (08, R182): all that a command can make of the response queue and of the count of interrupts. -/

namespace Sys2Proof.Machine

/-! ### The moves of the response queue -/

/-- The response queue and the count of interrupts raised for it. -/
structure Outbox where
  responses : List OutMessage
  interrupts : Nat

/-- The outbox of a part. -/
def State.outbox (s : State) : Outbox := { responses := s.responses, interrupts := s.interrupts }

/-- What the command `c` can make of the outbox `o`. -/
inductive Outbox.Moves (c : Instr) (o : Outbox) : Outbox → Prop
  /-- Most events leave it as it is. -/
  | same : Outbox.Moves c o o
  /-- A message is placed at the tail, with an interrupt on an empty queue (08, R182). -/
  | places (message : OutMessage) :
      Outbox.Moves c o
        { responses := o.responses ++ [message]
          interrupts := if o.responses = [] then o.interrupts + 1 else o.interrupts }
  /-- The head message is read (08, R181). -/
  | reads : Outbox.Moves c o { o with responses := o.responses.tail }
  /-- A reset begins (08, R188). -/
  | holds : Outbox.Moves c o { o with responses := [] }
  /-- A reset ends: RESET_DONE is placed on the emptied queue (08, R187). -/
  | ends (message : OutMessage) (reset : c = .softReset ∨ c = .resetEnd) :
      Outbox.Moves c o { responses := [message], interrupts := o.interrupts + 1 }

theorem Outbox.Moves.of_eq {c : Instr} {o p : Outbox} (h : p = o) : Outbox.Moves c o p := h ▸ .same

/-! ### What leaves the response queue as it is -/

/-- What the copy engine's operations do touches no message. -/
theorem State.outbox_of_outside {s t : State} (h : t.outside = s.outside) : t.outbox = s.outbox := by
  obtain ⟨_, _, responses, _, _, _, interrupts, _⟩ := State.outside_fields h
  rw [State.outbox, responses, interrupts, State.outbox]

theorem State.arbitrate_outbox (s : State) : s.arbitrate.outbox = s.outbox :=
  State.outbox_of_outside s.arbitrate_outside

theorem State.applyChange_outbox (s : State) (store : Store) (k : Kind) (row : Nat)
    (entry : Profile → Option ApplyEntry) : (s.applyChange store k row entry).outbox = s.outbox :=
  State.arbitrate_outbox _

theorem State.startJob_outbox (s : State) (i : Slot) (facts : BoardFacts) (policy : Policy) (j : JobNo) :
    (s.startJob i facts policy j).outbox = s.outbox :=
  State.arbitrate_outbox _

theorem State.completeGrant_outbox (s : State) : s.completeGrant.outbox = s.outbox := by
  unfold State.completeGrant State.handOver
  split
  · split
    · rw [State.arbitrate_outbox]
      split
      · exact State.outbox_of_outside (State.endOfWork_outside _ _)
      · rfl
    · rfl
  · rfl

theorem State.freezeExpired_outbox (s : State) (j : JobNo) : (s.freezeExpired j).outbox = s.outbox := by
  unfold State.freezeExpired
  (repeat' split) <;> exact State.outbox_of_outside (by simp)

/-- The four commands that reset the part or end a reset. -/
def resetsPart : Instr → Bool
  | .softReset | .powerOn | .resetPinAssert | .resetEnd => true
  | _ => false

/-- No move of lanes, jobs, grant, master, store and settings touches a message, but for a reset's (08, R188). -/
theorem State.Moves.outbox {c : Instr} {s t : State} (m : State.Moves c s t) (running : resetsPart c = false := by rfl) :
    t.outbox = s.outbox := by
  cases m
  case reset reset => rcases reset with rfl | rfl | rfl | rfl <;> exact (Bool.false_ne_true running.symm).elim
  case inserts | updates | retires => exact s.applyChange_outbox ..
  case starts => exact s.startJob_outbox ..
  case loses | aborts | retireJob => exact State.outbox_of_outside (by simp)
  case grants => exact s.completeGrant_outbox
  case freezes j => exact s.freezeExpired_outbox j
  case examines =>
    unfold State.examineRow
    (repeat' split) <;> rfl
  case takes =>
    unfold State.takeRow
    (repeat' split) <;> rfl
  case samples =>
    unfold State.sampleExpired
    (repeat' split) <;> rfl
  all_goals rfl

/-! ### The requests' answers -/

/-- The state is another's with one message placed, and its response queue and interrupts otherwise the same. -/
def State.Announces (s t : State) : Prop := ∃ (a : State) (message : OutMessage), a.outbox = s.outbox ∧ t = a.place message

theorem State.respond_announces {s a : State} {m : List Byte} {status : Status} {body : Payload}
    (h : a.outbox = s.outbox) : State.Announces s (a.respond m status body) := ⟨a, responseTo m status body, h, rfl⟩

/-- A placing raises an interrupt exactly on an empty queue (08, R182). -/
theorem State.Announces.outboxMoves {c : Instr} {s t : State} (h : State.Announces s t) : Outbox.Moves c s.outbox t.outbox := by
  obtain ⟨a, message, same, rfl⟩ := h
  obtain ⟨responses, interrupts⟩ := Outbox.mk.inj same
  rw [State.outbox.eq_def (a.place message), State.place_responses, State.place_interrupts, responses, interrupts]
  exact .places _

theorem State.decideInsert_announces (s : State) (m : List Byte) : State.Announces s (s.decideInsert m) := by
  unfold State.decideInsert
  split
  · exact State.respond_announces rfl
  · exact State.respond_announces (s.applyChange_outbox ..)

theorem State.decideUpdate_announces (s : State) (m : List Byte) : State.Announces s (s.decideUpdate m) := by
  unfold State.decideUpdate
  split
  · exact State.respond_announces rfl
  · split
    · exact State.respond_announces rfl
    · exact State.respond_announces (s.applyChange_outbox ..)

theorem State.decideRetire_announces (s : State) (m : List Byte) : State.Announces s (s.decideRetire m) := by
  unfold State.decideRetire
  split
  · exact State.respond_announces rfl
  · exact State.respond_announces (s.applyChange_outbox ..)

theorem State.decideLaneReset_announces (s : State) (m : List Byte) : State.Announces s (s.decideLaneReset m) := by
  unfold State.decideLaneReset
  split
  · exact State.respond_announces rfl
  · split
    · next i _ accepted => exact State.respond_announces (s.resetLane_moves (c := .laneReset) i accepted).outbox
    · exact State.respond_announces rfl

theorem State.decideCopyStart_announces (s : State) (m : List Byte) : State.Announces s (s.decideCopyStart m) := by
  unfold State.decideCopyStart
  split
  · exact State.respond_announces rfl
  · exact State.respond_announces (s.startJob_outbox ..)

theorem State.decideCopyAbort_announces (s : State) (m : List Byte) : State.Announces s (s.decideCopyAbort m) := by
  unfold State.decideCopyAbort
  split
  · exact State.respond_announces rfl
  · split
    · exact State.respond_announces rfl
    · exact State.respond_announces (State.outbox_of_outside (by simp))

/-! ### Every command -/

/-- A request command whose decision answers places its message. -/
theorem State.takeRequest_outboxMoves {c : Instr} (s : State) (isKind : Byte → Bool) {f : State → List Byte → State}
    (h : ∀ (a : State) (m : List Byte), State.Announces a (f a m)) :
    Outbox.Moves c s.outbox (s.takeRequest isKind f).outbox := by
  rcases State.takeRequest_cases s isKind f with e | ⟨m, rest, _, _, e⟩
  · exact .of_eq (congrArg State.outbox e)
  · rw [e]
    exact (h { s with requests := rest } m).outboxMoves

/-- A command held in reset moves the response queue as the command itself does, or not. -/
theorem State.unlessReset_outboxMoves {c : Instr} (s : State) (f : State → State) (h : Outbox.Moves c s.outbox (f s).outbox) :
    Outbox.Moves c s.outbox (s.unlessReset f).outbox := by
  unfold State.unlessReset
  split
  · exact .same
  · exact h

/-- A command held in reset that touches no message. -/
theorem State.unlessReset_outboxKept {c : Instr} (s : State) (f : State → State) (h : (f s).outbox = s.outbox) :
    Outbox.Moves c s.outbox (s.unlessReset f).outbox :=
  s.unlessReset_outboxMoves f (.of_eq h)

/-- STORE_INIT is answered at once only when it is refused (08, R180). -/
theorem State.decideStoreInit_outboxMoves {c : Instr} (s : State) (m : List Byte) :
    Outbox.Moves c s.outbox (s.decideStoreInit m).outbox := by
  unfold State.decideStoreInit
  split
  · exact .same
  · exact (State.respond_announces rfl).outboxMoves

/-- A completed initialisation places its response (08, R180). -/
theorem State.completeInit_outboxMoves {c : Instr} (s : State) : Outbox.Moves c s.outbox s.completeInit.outbox := by
  unfold State.completeInit
  split
  · exact .places _
  · exact .same

/-- At most one notice is placed (08, R184). -/
theorem State.placeNotice_outboxMoves {c : Instr} (s : State) : Outbox.Moves c s.outbox s.placeNotice.outbox := by
  unfold State.placeNotice
  split
  · exact .same
  · split
    · unfold State.placeNoticeAt
      split
      · exact .places _
      · unfold State.placeJobNotice
        split
        · exact .places _
        · exact .same
    · exact .same

/-- All that one command can make of the response queue and the interrupts. -/
theorem exec_outboxMoves (c : Instr) {s t : State} (h : exec c s = .next t) : Outbox.Moves c s.outbox t.outbox := by
  cases c
  all_goals (injection h with h; subst h)
  case insert => exact s.takeRequest_outboxMoves _ State.decideInsert_announces
  case update => exact s.takeRequest_outboxMoves _ State.decideUpdate_announces
  case retire => exact s.takeRequest_outboxMoves _ State.decideRetire_announces
  case laneReset => exact s.takeRequest_outboxMoves _ State.decideLaneReset_announces
  case copyStart => exact s.takeRequest_outboxMoves _ State.decideCopyStart_announces
  case copyAbort => exact s.takeRequest_outboxMoves _ State.decideCopyAbort_announces
  case identify | unknownRequestKind => exact s.takeRequest_outboxMoves _ fun _ _ => State.respond_announces rfl
  case find | readRow | storeStats | laneStatus | laneRelease | laneClearAlarm | copyStatus | setScan | setLaneAlarm
      | setAudit =>
    refine s.takeRequest_outboxMoves _ fun a m => ?_
    simp only [State.decideFind, State.decideReadRow, State.decideStoreStats, State.decideLaneStatus,
      State.decideLaneRelease, State.decideLaneClearAlarm, State.decideCopyStatus, State.decideSetScan,
      State.decideSetLaneAlarm, State.decideSetAudit]
    (repeat' split) <;> exact State.respond_announces rfl
  case storeInit =>
    rcases State.takeRequest_cases s (· == 6#8) State.decideStoreInit with e | ⟨m, rest, _, _, e⟩
    · exact .of_eq (congrArg State.outbox e)
    · exact (congrArg State.outbox e) ▸ State.decideStoreInit_outboxMoves { s with requests := rest } m
  case softReset =>
    rcases State.takeRequest_cases s (· == 19#8) State.decideSoftReset with e | ⟨m, rest, _, _, e⟩
    · exact .of_eq (congrArg State.outbox e)
    · exact (congrArg State.outbox e) ▸ .ends _ (.inl rfl)
  case responsePortRead n =>
    unfold State.readResponse
    split
    · exact .reads
    · exact .same
  case requestPortWrite =>
    refine s.unlessReset_outboxKept _ ?_
    unfold State.writeRequest
    split <;> rfl
  case portWordWriteDiscarded => exact .same
  case powerOn | resetPinAssert => exact .holds
  case resetEnd =>
    unfold State.endReset
    split
    · exact .ends _ (.inr rfl)
    · exact .same
  case storeInitComplete => exact s.unlessReset_outboxMoves _ s.completeInit_outboxMoves
  case noticePlace => exact s.unlessReset_outboxMoves _ s.placeNotice_outboxMoves
  case scan =>
    refine s.unlessReset_outboxKept _ ?_
    unfold State.scanned
    split <;> rfl
  case presentRise i =>
    exact s.unlessReset_outboxKept _ ((s.takeEvent i .presentRise).takePresentRise_moves (c := .presentRise i) i).outbox
  case presentFall i =>
    exact s.unlessReset_outboxKept _ ((s.takeEvent i .presentFall).takePresentFall_moves (c := .presentFall i) i).outbox
  case leverClose i =>
    exact s.unlessReset_outboxKept _ ((s.takeEvent i .leverClose).takeLeverClose_moves (c := .leverClose i) i).outbox
  case leverOpen i =>
    exact s.unlessReset_outboxKept _ ((s.takeEvent i .leverOpen).takeLeverOpen_moves (c := .leverOpen i) i).outbox
  case idAttemptComplete d =>
    exact s.unlessReset_outboxKept _
      (s.attemptEnds_moves (c := .idAttemptComplete d) _ fun i h => .identified i _ h (.inr ⟨d, rfl⟩)).outbox
  case idNotAcknowledged =>
    exact s.unlessReset_outboxKept _ (s.attemptEnds_moves (c := .idNotAcknowledged) _ s.countNack_moves).outbox
  case idArbitrationLost =>
    exact s.unlessReset_outboxKept _ (s.attemptEnds_moves (c := .idArbitrationLost) _ s.countLoss_moves).outbox
  case locked | patternResult =>
    refine s.unlessReset_outboxKept _ ?_
    split <;> rfl
  case burstAck i reply =>
    refine s.unlessReset_outboxKept _ ?_
    split
    · exact (s.takeAck_moves (c := .burstAck i reply) _ _ _ _).outbox
    · rfl
  case ackTimeout =>
    refine s.unlessReset_outboxKept _ ?_
    unfold State.ackExpired
    (repeat' split) <;> exact State.outbox_of_outside (by simp)
  case sweepExamination => exact s.unlessReset_outboxKept _ (State.Moves.examines (c := .sweepExamination)).outbox
  case drainRowTake => exact s.unlessReset_outboxKept _ (State.Moves.takes (c := .drainRowTake)).outbox
  case grantComplete => exact s.unlessReset_outboxKept _ s.completeGrant_outbox
  case freezeTimerExpiry j => exact s.unlessReset_outboxKept _ (s.freezeExpired_outbox j)
  case sampleTimerExpiry j => exact s.unlessReset_outboxKept _ (State.Moves.samples (c := .sampleTimerExpiry j) j).outbox
  case idWaitExpiry | alignStepTimeout | patternReplyTimeout | transmissionComplete | transmitterFill | auditTimerExpiry =>
    exact s.unlessReset_outboxKept _ rfl

/-- A placing raises an interrupt exactly on an empty queue, and every other move leaves the count (08, R182). -/
theorem Outbox.Moves.interrupts {c : Instr} {o p : Outbox} (m : Outbox.Moves c o p) :
    (o.responses = [] → p.responses ≠ [] → p.interrupts = o.interrupts + 1) ∧
    (p.responses = [] → p.interrupts = o.interrupts) ∧
    (o.responses ≠ [] → c ≠ .softReset → c ≠ .resetEnd → p.interrupts = o.interrupts) := by
  cases m with
  | same => exact ⟨fun empty filled => absurd empty filled, fun _ => rfl, fun _ _ _ => rfl⟩
  | places message =>
    exact ⟨fun empty _ => if_pos empty, fun empty => absurd empty (by simp), fun filled _ _ => if_neg filled⟩
  | reads => exact ⟨fun empty filled => absurd (by rw [empty]; rfl) filled, fun _ => rfl, fun _ _ _ => rfl⟩
  | holds => exact ⟨fun _ filled => absurd rfl filled, fun _ => rfl, fun _ _ _ => rfl⟩
  | ends message reset =>
    refine ⟨fun _ _ => rfl, fun empty => absurd empty (by simp), fun _ soft ends => ?_⟩
    rcases reset with e | e
    · exact absurd e soft
    · exact absurd e ends

/-- Settles O9: each command is one move of the response queue, which counts its interrupt. -/
theorem interrupt_onlyOntoEmptyQueue : Obligations.Interrupt_OnlyOntoEmptyQueue :=
  fun c _ _ run => (exec_outboxMoves c run).interrupts

end Sys2Proof.Machine
end

section
/-! SUPPORT. The placing of notices (08, R183 to R185; 06, R145): the twenty positions of the search, the mark it meets first, and
what the placing of that mark's notice makes of the part. -/

namespace Sys2Proof.Machine

/-! ### The search (08, R184) -/

/-- The search meets first the pending mark the fewest steps upward from its pointer. -/
theorem positionsFrom_find?_eq_some {p : Fin 20} {test : Fin 20 → Bool} {k : Nat} (inside : k < 20)
    (found : test (p + Fin.ofNat 20 k) = true) (before : ∀ h < k, test (p + Fin.ofNat 20 h) = false) :
    (positionsFrom p).find? test = some (p + Fin.ofNat 20 k) := by
  have first : (List.range 20).find? (test ∘ fun h => p + Fin.ofNat 20 h) = some k :=
    List.find?_range_eq_some.2 ⟨found, List.mem_range.2 inside, fun h below => congrArg not (before h below)⟩
  rw [positionsFrom, List.find?_map, first]
  rfl

/-- Without a pending mark the search meets nothing. -/
theorem State.nextMark_eq_none {s : State} (clear : ∀ p, s.pendingMark p = false) : s.nextMark = none :=
  List.find?_eq_none.2 fun p _ => by simp [clear p]

/-! ### The positions (08, R183) -/

/-- A lane's position is its number. -/
theorem lanePosition (i : Slot) : ∃ lane : (Fin.ofNat 20 i.val).val < 16, (⟨(Fin.ofNat 20 i.val).val, lane⟩ : Slot) = i :=
  have number : (Fin.ofNat 20 i.val).val = i.val := Nat.mod_eq_of_lt (by omega)
  ⟨number.trans_lt i.isLt, Fin.ext number⟩

/-- A job entry's position is its number above the sixteen lanes. -/
theorem jobPosition (j : JobNo) :
    ¬ (Fin.ofNat 20 (16 + j.val)).val < 16 ∧ ∀ entry, (⟨(Fin.ofNat 20 (16 + j.val)).val - 16, entry⟩ : JobNo) = j := by
  have number : (Fin.ofNat 20 (16 + j.val)).val = 16 + j.val := Nat.mod_eq_of_lt (by omega)
  exact ⟨by omega, fun _ => Fin.ext ((congrArg (· - 16) number).trans (Nat.add_sub_cancel_left 16 j.val))⟩

/-- The position after one. -/
theorem position_succ (n : Nat) : Fin.ofNat 20 n + 1 = Fin.ofNat 20 (n + 1) := by
  ext
  simp [Fin.val_add]

/-- The mark at a lane's position is the lane's. -/
theorem State.pendingMark_lane (s : State) (i : Slot) : s.pendingMark (Fin.ofNat 20 i.val) = (s.lane i).mark := by
  obtain ⟨lane, here⟩ := lanePosition i
  rw [State.pendingMark, dif_pos lane, here]

/-- The mark at a job entry's position is that of the job in it. -/
theorem State.pendingMark_job {s : State} {j : JobNo} {job : Job} (hj : s.job j = some job) :
    s.pendingMark (Fin.ofNat 20 (16 + j.val)) = job.mark := by
  obtain ⟨above, here⟩ := jobPosition j
  rw [State.pendingMark, dif_neg above, here, hj]

/-! ### The placing -/

section
variable {s : State}

/-- Fewer than sixteen free entries take no notice. -/
theorem State.placeNotice_full (full : s.responses.length + s.reserved + 16 > 256) : s.placeNotice = s := by
  have short : s.freeEntries < Config.noticeRoom := by
    simp only [State.freeEntries, Config.responseCapacity, Config.noticeRoom]
    omega
  rw [State.placeNotice, if_pos short]

/-- With sixteen free entries the notice of the mark that the search meets is placed. -/
theorem State.placeNotice_next (room : s.responses.length + s.reserved + 16 ≤ 256) {p : Fin 20}
    (next : s.nextMark = some p) : s.placeNotice = s.placeNoticeAt p := by
  have enough : ¬ s.freeEntries < Config.noticeRoom := by
    simp only [State.freeEntries, Config.responseCapacity, Config.noticeRoom]
    omega
  rw [State.placeNotice, if_neg enough, next]

/-- Without a pending mark no notice is placed. -/
theorem State.placeNotice_clear (clear : ∀ p, s.pendingMark p = false) : s.placeNotice = s := by
  rw [State.placeNotice, State.nextMark_eq_none clear]
  exact ite_self s

/-- A lane's notice at its position (08, R184 and R185). -/
theorem State.placeNoticeAt_lane (i : Slot) :
    s.placeNoticeAt (Fin.ofNat 20 i.val) =
      { s.placed (s.laneNotice i) with
        lanes := s.lanes.set i { s.lane i with mark := false }
        noticePointer := Fin.ofNat 20 (i.val + 1) } := by
  obtain ⟨lane, here⟩ := lanePosition i
  rw [State.placeNoticeAt, dif_pos lane, here, position_succ]
  rfl

/-- A job's notice at its entry's position (08, R184 and R185; 06, R145). -/
theorem State.placeNoticeAt_job {j : JobNo} {job : Job} (hj : s.job j = some job) :
    s.placeNoticeAt (Fin.ofNat 20 (16 + j.val)) =
      { s.placed (jobNotice j job) with
        jobs := s.jobs.set j job.noticed
        noticePointer := Fin.ofNat 20 (16 + j.val + 1) } := by
  obtain ⟨above, here⟩ := jobPosition j
  rw [State.placeNoticeAt, dif_neg above, here, position_succ, State.placeJobNotice, hj]
  rfl

end

/-- Settles O10: the search meets the first pending mark, whose position is a lane's or a job entry's. -/
theorem noticePlace_takesFirstMark : Obligations.NoticePlace_TakesFirstMark := by
  intro s awake
  have run : exec .noticePlace s = .next s.placeNotice :=
    congrArg Host.Outcome.next (State.unlessReset_run s _ awake)
  rw [run]
  refine ⟨fun full => congrArg Host.Outcome.next (State.placeNotice_full full),
    fun clear => congrArg Host.Outcome.next (State.placeNotice_clear clear), fun room k inside before => ?_⟩
  have first : s.pendingMark (s.noticePointer + Fin.ofNat 20 k) = true →
      s.placeNotice = s.placeNoticeAt (s.noticePointer + Fin.ofNat 20 k) := fun found =>
    State.placeNotice_next room (positionsFrom_find?_eq_some inside found before)
  refine ⟨fun i position mark => ?lane, fun j job position hj mark => ?job⟩ <;> rw [position] at first
  case lane =>
    rw [first ((s.pendingMark_lane i).trans mark), State.placeNoticeAt_lane]
    rfl
  case job =>
    rw [first ((State.pendingMark_job hj).trans mark), State.placeNoticeAt_job hj]
    rfl

end Sys2Proof.Machine
end

section
/-! SUPPORT. The step and the queue of waiting commands (95; 08, section 8.3): a step is a command or a microsecond, every command
leaves a next state, and none touches the queue, which the step alone shortens. -/

namespace Sys2Proof.Machine

/-! ### The two kinds of step (log 1) -/

/-- A step takes the command at the front of the queue. -/
theorem step_of_pending_cons {s : State} {c : Instr} {rest : List Instr} (waiting : s.pending = c :: rest) :
    step s = exec c { s with pending := rest } := by
  rw [step.eq_def, waiting]

/-- With no command waiting a step is a microsecond. -/
theorem step_of_pending_nil {s : State} (idle : s.pending = []) : step s = .next s.tick := by
  rw [step.eq_def, idle]

/-- Settles O1: the queue is not empty, so the step is its front command's. -/
theorem step_runsFrontCommand : Obligations.Step_RunsFrontCommand :=
  fun _ _ _ waiting => step_of_pending_cons waiting

/-! ### The microsecond -/

/-- In reset no time passes (log 1). -/
theorem State.tick_held {s : State} (held : s.inReset = true) : s.tick = s := if_pos held

/-- Outside reset the microsecond is one on the scanner, the master, every lane and every job (log 1, log 26). -/
theorem State.tick_run {s : State} (awake : s.inReset = false) :
    s.tick =
      { s with
        scanner := { s.scanner with nextScan := s.scanner.nextScan - 1 }
        master := s.master.tick, lanes := s.lanes.map Lane.tick, jobs := s.jobs.map (Option.map Job.tick) } := by
  rw [State.tick, awake]
  simp only [State.mapLanes, State.mapJobs, mapVector_eq_map, Bool.false_eq_true, if_false]

/-- Settles O2: the idle step is the microsecond, whose ticks are the statement's timers; of the master's phases only a wait
grows shorter. -/
theorem step_idleCountsTimersDown : Obligations.Step_IdleCountsTimersDown := by
  intro s idle
  rw [step_of_pending_nil idle]
  refine ⟨fun held => congrArg Host.Outcome.next (State.tick_held held), fun awake => ?_⟩
  rw [State.tick_run awake, IdMaster.tick]
  cases s.master.phase <;> rfl

/-! ### What leaves the queue of commands as it is -/

@[simp] theorem State.applyChange_pending (s : State) (store : Store) (k : Kind) (row : Nat)
    (entry : Profile → Option ApplyEntry) : (s.applyChange store k row entry).pending = s.pending :=
  State.arbitrate_pending _

@[simp] theorem State.startJob_pending (s : State) (i : Slot) (facts : BoardFacts) (policy : Policy) (j : JobNo) :
    (s.startJob i facts policy j).pending = s.pending := State.arbitrate_pending _

@[simp] theorem State.respond_pending (s : State) (m : List Byte) (status : Status) (body : Payload) :
    (s.respond m status body).pending = s.pending := rfl

@[simp] theorem State.refuse_pending (s : State) (m : List Byte) (status : Status) :
    (s.refuse m status).pending = s.pending := rfl

theorem State.completeGrant_pending (s : State) : s.completeGrant.pending = s.pending := by
  unfold State.completeGrant
  split
  · split
    · rw [State.arbitrate_pending]
      split
      · exact State.endOfWork_pending _ _
      · rfl
    · rfl
  · rfl

theorem State.freezeExpired_pending (s : State) (j : JobNo) : (s.freezeExpired j).pending = s.pending := by
  unfold State.freezeExpired
  (repeat' split) <;> simp

/-- No move of lanes, jobs, grant, master, store and settings touches the queue of commands, a reset's included. -/
theorem State.Moves.pending {c : Instr} {s t : State} (m : State.Moves c s t) : t.pending = s.pending := by
  cases m
  case inserts | updates | retires => exact s.applyChange_pending ..
  case starts => exact s.startJob_pending ..
  case loses | aborts | retireJob => simp
  case grants => exact s.completeGrant_pending
  case freezes j => exact s.freezeExpired_pending j
  case examines =>
    unfold State.examineRow
    (repeat' split) <;> rfl
  case takes =>
    unfold State.takeRow
    (repeat' split) <;> rfl
  case samples =>
    unfold State.sampleExpired
    (repeat' split) <;> rfl
  all_goals rfl

/-! ### The two gates of a command -/

/-- A request command keeps the queue of commands when its decision does. -/
theorem State.takeRequest_pending (s : State) (isKind : Byte → Bool) {decided : State → List Byte → State}
    (keeps : ∀ (a : State) (m : List Byte), (decided a m).pending = a.pending) :
    (s.takeRequest isKind decided).pending = s.pending := by
  rcases s.takeRequest_cases isKind decided with e | ⟨m, rest, _, _, e⟩
  · rw [e]
  · rw [e, keeps]

/-- A command held in reset keeps the queue of commands when it does so outside reset. -/
theorem State.unlessReset_pending (s : State) {f : State → State} (keeps : (f s).pending = s.pending) :
    (s.unlessReset f).pending = s.pending := by
  unfold State.unlessReset
  split
  · rfl
  · exact keeps

/-! ### The commands whose effect is no single move -/

theorem State.decideLaneReset_pending (s : State) (m : List Byte) : (s.decideLaneReset m).pending = s.pending := by
  unfold State.decideLaneReset
  split
  · rfl
  · split
    · next i _ accepted => exact (s.resetLane_moves (c := .laneReset) i accepted).pending
    · rfl

theorem State.ackExpired_pending (s : State) (i : Slot) : (s.ackExpired i).pending = s.pending := by
  unfold State.ackExpired
  (repeat' split) <;> simp

theorem State.placeNotice_pending (s : State) : s.placeNotice.pending = s.pending := by
  unfold State.placeNotice State.placeNoticeAt State.placeJobNotice
  (repeat' split) <;> rfl

theorem State.completeInit_pending (s : State) : s.completeInit.pending = s.pending := by
  unfold State.completeInit
  split <;> rfl

theorem State.endReset_pending (s : State) : s.endReset.pending = s.pending := by
  unfold State.endReset
  split <;> rfl

/-! ### Every command -/

/-- Every command leaves a next state: no arm of `exec` ends in a fault or a refusal. -/
theorem exec_completes (c : Instr) (s : State) : ∃ t, exec c s = .next t := by
  rcases exec_form c with ⟨decided, run⟩ | ⟨_, rfl | rfl | rfl | ⟨n, rfl⟩ | ⟨f, run⟩⟩
  · exact ⟨_, run s⟩
  · exact ⟨_, rfl⟩
  · exact ⟨_, rfl⟩
  · exact ⟨_, rfl⟩
  · exact ⟨_, rfl⟩
  · exact ⟨_, run s⟩

/-- No command touches the queue of waiting commands. -/
theorem exec_pending (c : Instr) {s t : State} (run : exec c s = .next t) : t.pending = s.pending := by
  cases c
  all_goals (injection run with run; subst run)
  case insert | update | retire | copyStart | copyAbort =>
    refine s.takeRequest_pending _ fun a m => ?_
    simp only [State.decideInsert, State.decideUpdate, State.decideRetire, State.decideCopyStart, State.decideCopyAbort]
    (repeat' split) <;> simp
  case find | readRow | storeStats | laneStatus | copyStatus =>
    refine s.takeRequest_pending _ fun a m => ?_
    simp only [State.decideFind, State.decideReadRow, State.decideStoreStats, State.decideLaneStatus,
      State.decideCopyStatus]
    (repeat' split) <;> rfl
  case storeInit | setScan | setLaneAlarm | setAudit | laneRelease | laneClearAlarm =>
    refine s.takeRequest_pending _ fun a m => ?_
    simp only [State.decideStoreInit, State.decideSetScan, State.decideSetLaneAlarm, State.decideSetAudit,
      State.decideLaneRelease, State.decideLaneClearAlarm]
    (repeat' split) <;> rfl
  case laneReset => exact s.takeRequest_pending _ State.decideLaneReset_pending
  case identify | softReset | unknownRequestKind => exact s.takeRequest_pending _ fun _ _ => rfl
  case responsePortRead | portWordWriteDiscarded | powerOn | resetPinAssert => rfl
  case resetEnd => exact s.endReset_pending
  case requestPortWrite =>
    refine s.unlessReset_pending ?_
    unfold State.writeRequest
    split <;> rfl
  case scan =>
    refine s.unlessReset_pending ?_
    unfold State.scanned
    split <;> rfl
  case presentRise i =>
    exact s.unlessReset_pending ((s.takeEvent i .presentRise).takePresentRise_moves (c := .presentRise i) i).pending
  case presentFall i =>
    exact s.unlessReset_pending ((s.takeEvent i .presentFall).takePresentFall_moves (c := .presentFall i) i).pending
  case leverClose i =>
    exact s.unlessReset_pending ((s.takeEvent i .leverClose).takeLeverClose_moves (c := .leverClose i) i).pending
  case leverOpen i =>
    exact s.unlessReset_pending ((s.takeEvent i .leverOpen).takeLeverOpen_moves (c := .leverOpen i) i).pending
  case idAttemptComplete d =>
    exact s.unlessReset_pending
      (s.attemptEnds_moves (c := .idAttemptComplete d) _ fun i h => .identified i _ h (.inr ⟨d, rfl⟩)).pending
  case idNotAcknowledged =>
    exact s.unlessReset_pending (s.attemptEnds_moves (c := .idNotAcknowledged) _ s.countNack_moves).pending
  case idArbitrationLost =>
    exact s.unlessReset_pending (s.attemptEnds_moves (c := .idArbitrationLost) _ s.countLoss_moves).pending
  case locked | patternResult =>
    refine s.unlessReset_pending ?_
    split <;> rfl
  case burstAck i reply =>
    refine s.unlessReset_pending ?_
    split
    · exact (s.takeAck_moves (c := .burstAck i reply) _ _ _ _).pending
    · rfl
  case ackTimeout i => exact s.unlessReset_pending (s.ackExpired_pending i)
  case storeInitComplete => exact s.unlessReset_pending s.completeInit_pending
  case noticePlace => exact s.unlessReset_pending s.placeNotice_pending
  case sweepExamination => exact s.unlessReset_pending (State.Moves.examines (c := .sweepExamination)).pending
  case drainRowTake => exact s.unlessReset_pending (State.Moves.takes (c := .drainRowTake)).pending
  case grantComplete => exact s.unlessReset_pending s.completeGrant_pending
  case freezeTimerExpiry j => exact s.unlessReset_pending (s.freezeExpired_pending j)
  case sampleTimerExpiry j => exact s.unlessReset_pending (State.Moves.samples (c := .sampleTimerExpiry j) j).pending
  case idWaitExpiry | alignStepTimeout | patternReplyTimeout | transmissionComplete | transmitterFill | auditTimerExpiry =>
    exact s.unlessReset_pending rfl

/-- Settles O3: every command completes, and the state it leaves has the queue of commands it was given. -/
theorem exec_completesAndKeepsQueue : Obligations.Exec_CompletesAndKeepsQueue := by
  intro c s
  obtain ⟨t, run⟩ := exec_completes c s
  exact ⟨t, run, exec_pending c run⟩

end Sys2Proof.Machine
end
